-- ==== Sys2Proof/Word.lean ====
section
/-! DEFINITION. The word types of the ULM: a byte is 8 bits, registers and addresses are 64 bits
(spec/00_scope.md R7, R13), and a register name is one byte of the instruction (spec/10_state.md R21). -/

namespace Sys2Proof

/-- A byte: 8 bits (R13). -/
abbrev Byte := BitVec 8

/-- A quadword: the width of every register, of `%ip` and of an address (R7). -/
abbrev Word := BitVec 64

/-- A register name, the byte X, Y or Z read as `u(byte)`, 0 to 255 (R21). -/
abbrev Reg := BitVec 8

/-- An 8-bit immediate or displacement as it stands in the instruction (R77). -/
abbrev Imm8 := BitVec 8

/-- The 16-bit immediate `XY` as it stands in the instruction (R68, R69). -/
abbrev Imm16 := BitVec 16

/-- The 24-bit jump operand `XYZ` as it stands in the instruction, in units of instructions (R70). -/
abbrev Imm24 := BitVec 24

end Sys2Proof
end

