-- ==== Sys2Proof/Machine/Memory.lean ====
section
/-! DEFINITION. Memory as data (spec/20_memory.md R40 to R44): a list of (address, byte) cells in one
canonical form, addresses strictly rising and below 2^64, no cell equal to what an unlisted address reads
as, so that equal memories are equal lists. Byte order (R42) is decided here, once. -/

namespace Sys2Proof.Machine

/-- The memory: the bytes that differ from `unlistedByte`, by address (R40). -/
abbrev Memory := List Host.Cell

/-- What a byte that nothing has written reads as. The spec leaves it unspecified (R34, R332). DESIGN
CHOICE, unsafe (log entry 3): zero, one of the readings R332 allows. -/
def unlistedByte : Byte := 0

/-- `M1(a)` (R41). -/
def Memory.read : Memory → Nat → Byte
  | [], _ => unlistedByte
  | (k, b) :: m, a => if a = k then b else Memory.read m a

/-- `M1(a) <- b`, keeping the canonical form. -/
def Memory.write : Memory → Nat → Byte → Memory
  | [], a, b => if b = unlistedByte then [] else [(a, b)]
  | (k, c) :: m, a, b =>
    if a < k then (if b = unlistedByte then (k, c) :: m else (a, b) :: (k, c) :: m)
    else if a = k then (if b = unlistedByte then m else (a, b) :: m)
    else (k, c) :: Memory.write m a b

/-- The first listed address, if there is one, lies above `a`. -/
def Memory.headAbove (a : Nat) : Memory → Bool
  | [] => true
  | (k, _) :: _ => decide (a < k)

/-- The canonical form. -/
def Memory.wf : Memory → Bool
  | [] => true
  | (a, b) :: m => decide (a < 2 ^ 64) && (b != unlistedByte) && Memory.headAbove a m && Memory.wf m

/-- The `n` consecutive bytes `M1(a), M1(a+1), …`, each address taken mod 2^64 (R41). -/
def Memory.readBytes (m : Memory) : Word → Nat → List Byte
  | _, 0 => []
  | a, n + 1 => m.read a.toNat :: m.readBytes (a + 1) n

/-- The bytes stored from address `a` on, each address taken mod 2^64 (R44). -/
def Memory.writeBytes : Memory → Word → List Byte → Memory
  | m, _, [] => m
  | m, a, b :: bs => Memory.writeBytes (m.write a.toNat b) (a + 1) bs

/-- Single bytes stored in order, each at its own address. -/
def Memory.writeCells : Memory → List (Word × Byte) → Memory
  | m, [] => m
  | m, (a, b) :: cs => Memory.writeCells (m.write a.toNat b) cs

/-- `u(Mk(x))` of big-endian bytes: the first byte is the most significant (R42). -/
def bigEndianValue : List Byte → Nat
  | [] => 0
  | b :: bs => b.toNat * 256 ^ bs.length + bigEndianValue bs

/-- The low `n` bytes of a number, most significant first: byte `i` is `v[8(n-i)-1 : 8(n-1-i)]` (R44). -/
def bigEndianBytes : Nat → Nat → List Byte
  | 0, _ => []
  | n + 1, v => BitVec.ofNat 8 (v / 256 ^ n) :: bigEndianBytes n v

end Sys2Proof.Machine
end

