-- ==== Sys2Proof/Config.lean ====
section
/-! DEFINITION. What the spec leaves to the installation: the types of the named parameters of
spec/00_scope.md R8, the questions and answers of the host behind `trap`
(spec/42_io_system.md R148 to R151, R155), and the free values. The free values are opaque constants:
nothing in Lean can evaluate them, so whatever is proved holds for every value of them. The parameters'
defaults stand in Sys2Proof/Machine/Platform.lean. -/

namespace Sys2Proof

/-- `GETC_UPPER` (R142): what getc does to bits 63:8 of its destination. -/
inductive GetcUpper
  | zero
  | keep
  | any
deriving DecidableEq, Repr, Inhabited

/-- `IDIVQ_OVERFLOW` (R115): idivq of -2^63 by -1. -/
inductive IdivqOverflow
  | fault
  | wrap
deriving DecidableEq, Repr, Inhabited

/-- `MULQ_FLAGS` (R104): the reading of mulq's flag table. -/
inductive MulqFlags
  | literal
  | arbitrary
deriving DecidableEq, Repr, Inhabited

/-- `SILENT_FLAGS` (R29): the flags that the sections of divq, idivq, shrq, sarq and shlq do not name. -/
inductive SilentFlags
  | unchanged
  | arbitrary
deriving DecidableEq, Repr, Inhabited

/-- A range of bytes that exist: `size` bytes from address `base` on (R53). -/
structure Region where
  base : Nat
  size : Nat
deriving DecidableEq, Repr, Inhabited

/-- The parameters of the installation (R8), fixed when a run is launched (R331); no step changes them.
DESIGN CHOICE (log entry 1): the record rides in State, so that a statement about every state holds for
every choice of the parameters. -/
structure Platform where
  /-- The bytes that exist; `MEM_ADMITTED` is computed from them (R53). -/
  regions : List Region
  /-- The ranges (address, length) that wrap past 2^64-1 and that `MEM_ADMITTED` nevertheless admits if their
  bytes exist; none by default (R53, log entry 2). -/
  wrappingRanges : List (Word × Nat)
  /-- `LAST_CELL` (R146). -/
  lastCell : Option Word
  /-- `GETC_UPPER` (R142). -/
  getcUpper : GetcUpper
  /-- `IDIVQ_OVERFLOW` (R115). -/
  idivqOverflow : IdivqOverflow
  /-- `MULQ_FLAGS` (R104). -/
  mulqFlags : MulqFlags
  /-- `SILENT_FLAGS` (R29). -/
  silentFlags : SilentFlags
  /-- The trap numbers other than 0 and 1 for which the platform supplies `TRAP_HANDLER` (R155). -/
  extraTraps : List Word
deriving DecidableEq, Repr, Inhabited

/-- The host's answer to a read (R149): `Ok(k, bytes)` with `k` the number of bytes, or `Err(e)`, `e > 0`. -/
inductive ReadReply
  | ok (bytes : List Byte)
  | err (e : Nat) (pos : 0 < e)
deriving DecidableEq, Repr, Inhabited

/-- The host's answer to a write (R150): `Ok(k)`, the first `k` bytes were taken, or `Err(e)`, `e > 0`. -/
inductive WriteReply
  | ok (count : Nat)
  | err (e : Nat) (pos : 0 < e)
deriving DecidableEq, Repr, Inhabited

/-- What a platform's own handler of a further trap number answers (R155): the 64-bit value it returns, and the
memory it reads and writes: the addresses of the bytes it reads, then the bytes it writes, in order. That the
accesses are of single bytes and the reads come first is a DESIGN CHOICE (log entry 18). -/
structure TrapReply where
  value : Word
  reads : List Word
  writes : List (Word × Byte)
deriving DecidableEq, Repr, Inhabited

/-- The addresses of the bytes a handler reads and writes, in the order their existence is checked: R155's
statement of its accesses, reads first (log entry 18). -/
def TrapReply.accesses (r : TrapReply) : List Word :=
  r.reads ++ r.writes.map Prod.fst

/-- One answer that the environment has put ready for a trap. -/
inductive HostReply
  | read (r : ReadReply)
  | write (r : WriteReply)
  | other (r : TrapReply)
deriving DecidableEq, Repr, Inhabited

/-- One exchange with the host: what it was asked and what it answered (R322: "the host's record"). -/
inductive HostEvent
  | read (fd : Int) (nbyte : Nat) (reply : ReadReply)
  | write (fd : Int) (data : List Byte) (reply : WriteReply)
  | other (number block : Word) (reply : TrapReply)
deriving DecidableEq, Repr, Inhabited

/-- FREE VALUE (log entry 34): the n-th arbitrary register value, for `GETC_UPPER = any` (R142). -/
opaque Config.freeWord : Nat → Word

/-- FREE VALUE (log entry 34): the n-th arbitrary flag, for `MULQ_FLAGS = arbitrary` (R104) and
`SILENT_FLAGS = arbitrary` (R29). -/
opaque Config.freeFlag : Nat → Bool

/-- FREE VALUE (log entry 16): `HOST_IO.read(fd, nbyte)` (R149), after any history of exchanges. -/
opaque Config.hostRead : List HostEvent → Int → Nat → ReadReply

/-- FREE VALUE (log entry 16): `HOST_IO.write(fd, data)` (R150), after any history of exchanges. -/
opaque Config.hostWrite : List HostEvent → Int → List Byte → WriteReply

/-- FREE VALUE (log entry 18): `TRAP_HANDLER(n, P)` (R155), after any history, over the bytes that exist. -/
opaque Config.trapHandler : List HostEvent → Word → Word → List Host.Cell → TrapReply

end Sys2Proof
end

