-- ==== Sys2Proof/Machine/Platform.lean ====
section
/-! DEFINITION. The parameters' defaults (spec/00_scope.md R8), the start values that the spec leaves to the
launch (spec/10_state.md R34), and the predicate `MEM_ADMITTED` (spec/20_memory.md R53). -/

namespace Sys2Proof.Machine

/-- The parameters of the machine after reset: R8's defaults. R8 gives `MEM_ADMITTED` no default; DESIGN
CHOICE, unsafe (log entry 2): every byte of the 64-bit address space exists. -/
def defaultPlatform : Platform where
  regions := [⟨0, 2 ^ 64⟩]
  wrappingRanges := []
  lastCell := none
  getcUpper := .zero
  idivqOverflow := .fault
  mulqFlags := .literal
  silentFlags := .unchanged
  extraTraps := []

/-- `ENTRY_IP` (R34): the spec's default 0 (log entry 6). -/
def entryIp : Word := 0

/-- The start value of `%1` to `%255`, which R34 leaves unspecified. DESIGN CHOICE, unsafe (log entry 4). -/
def resetRegister : Word := 0

/-- The start value of the four flags, which R34 leaves unspecified. DESIGN CHOICE, unsafe (log entry 5). -/
def resetFlag : Bool := false

end Sys2Proof.Machine

namespace Sys2Proof

/-- The byte at address `a` exists: it lies in one of the platform's regions (R53). -/
def Platform.byteExists (p : Platform) (a : Nat) : Bool :=
  p.regions.any fun r => decide (r.base ≤ a) && decide (a < r.base + r.size)

/-- `MEM_ADMITTED(addr, n)` (R53): all `n` bytes, at addresses taken mod 2^64, exist, and a range that wraps past
2^64-1 is one that the platform says it admits. -/
def Platform.admits (p : Platform) (a : Word) (n : Nat) : Bool :=
  (decide (a.toNat + n ≤ 2 ^ 64) || decide ((a, n) ∈ p.wrappingRanges)) &&
    (List.range n).all fun i => p.byteExists ((a.toNat + i) % 2 ^ 64)

/-- The first of the `n` byte addresses `a, a+1, …` (each taken mod 2^64) that is not admitted, in the order
of the loop of R149 (log entry 20). -/
def Platform.firstUnadmitted (p : Platform) : Word → Nat → Option Word
  | _, 0 => none
  | a, n + 1 => if p.admits a 1 then p.firstUnadmitted (a + 1) n else some a

end Sys2Proof
end

