-- ==== Sys2Proof/Machine/State.lean ====
section
/-! DEFINITION. The whole state of the ULM as plain data (spec/10_state.md R20), the faults it can be in
(spec/60_exceptions.md R302 to R308), the reasons for which a step has no next state, and the state after
reset (R34). -/

namespace Sys2Proof.Machine

/-- The seven terminal faults of the spec (R302 to R308) with what each records. Raising one is
`State.raise`: the run status becomes `faulted` and nothing else changes (R301). -/
inductive RaisedFault
  /-- R302: the fetched word's Op byte is not defined; records the word. -/
  | illegalInstruction (w : BitVec 32)
  /-- R303: a misaligned data access, fetch or parameter block; records the address. -/
  | alignmentFault (a : Word)
  /-- R304: an access to bytes that do not exist; records the address of the first byte of the access,
  for a trap buffer of the first byte not admitted. -/
  | memoryAccessFault (a : Word)
  /-- R305: divq or idivq with divisor 0. -/
  | divideByZero
  /-- R306: idivq of -2^63 by -1 under `IDIVQ_OVERFLOW = fault`. -/
  | divideOverflow
  /-- R307: a neighbour register number above 255; records the offending register byte. -/
  | registerIndexFault (r : Reg)
  /-- R308: a trap number without a handler; records the number. -/
  | unknownTrap (n : Word)
deriving DecidableEq, Repr, Inhabited

/-- The run status (R20): running, stopped by halt with an exit code (R153), or stopped by a fault (R301). -/
inductive RunStatus
  | running
  | halted (code : Byte)
  | faulted (f : RaisedFault)
deriving DecidableEq, Repr, Inhabited

/-- The four status flags (R27). -/
structure Flags where
  /-- ZF, the zero flag. -/
  zf : Bool
  /-- CF, the carry flag. -/
  cf : Bool
  /-- OF. -/
  of : Bool
  /-- SF. -/
  sf : Bool
deriving DecidableEq, Repr, Inhabited

/-- The architectural state of the ULM and of what it observes (R20, R33), with the installation's
parameters (R8) and the model's two own fields (INVENTORY.md, '## State'). -/
structure State where
  /-- `%1` to `%255`; register number `r` stands at index `r - 1`. `%0` has no storage (R21). -/
  gpr : Vector Word 255
  /-- The instruction pointer `%ip` (R24). -/
  ip : Word
  /-- ZF, CF, OF, SF (R27). -/
  flags : Flags
  /-- The memory (R40). -/
  mem : Memory
  /-- The run status (R20). -/
  status : RunStatus
  /-- The input bytes supplied and not yet consumed, next one first (R33, R141). -/
  input : List Byte
  /-- The output stream, first byte first (R33, R152). -/
  output : List Byte
  /-- What the host behind `trap` was asked and answered, oldest first (R20 f, R322). -/
  hostLog : List HostEvent
  /-- The parameters of R8; constant. -/
  platform : Platform
  /-- The model's own (log entry 16): host answers put ready by the environment, next one first. -/
  hostReplies : List HostReply
  /-- The model's own (log entry 34): how many free values have been drawn. -/
  draws : Nat
deriving DecidableEq, Repr

/-- Why `step` has no next state. Raised by `step` alone: where the run status is halted or faulted "there
is no step" (R311). Both are safe: the machine does nothing further there, and neither does the model. -/
inductive Fault
  /-- `step` was asked of a machine that halt has stopped (R153). Safe. -/
  | machineHalted (code : Byte)
  /-- `step` was asked of a machine that a fault has stopped (R301). Safe. -/
  | machineFaulted (f : RaisedFault)
deriving DecidableEq, Repr, Inhabited

/-- Why an instruction would have no meaning in the model. -/
inductive Refusal
  /-- The instruction of this mnemonic has no meaning yet: answered by exec's arms alone, of which none
  does so now. Safe: the model says nothing about such a step. -/
  | notModelled (mnemonic : String)
deriving DecidableEq, Repr, Inhabited

/-- The three outcomes of one step of this machine. -/
abbrev Result := Host.Outcome State Fault Refusal

/-- The machine right after reset (R34, R330). The values that R34 leaves unspecified are named in log
entries 3, 4 and 5, the parameters in entries 1 and 2, the rest is R34's own. -/
def State.reset : State where
  gpr := Vector.replicate 255 resetRegister
  ip := entryIp
  flags := ⟨resetFlag, resetFlag, resetFlag, resetFlag⟩
  mem := []
  status := .running
  input := []
  output := []
  hostLog := []
  platform := defaultPlatform
  hostReplies := []
  draws := 0

end Sys2Proof.Machine
end

