-- ==== Sys2Proof/Machine/Alu.lean ====
section
/-! DEFINITION. The result values of the arithmetic, logic and shift instructions
(spec/40_integer_arithmetic.md, spec/41_logic_shift.md): exact integers first, narrowed to 64 bits last. -/

namespace Sys2Proof.Machine

/-- `pat_64(u(a) + u(b))` (R100). -/
def sumOf (a b : Word) : Word := BitVec.ofNat 64 (a.toNat + b.toNat)

/-- `pat_64(u(b) - u(a))`: the first operand from the second (R102, R113). -/
def differenceOf (a b : Word) : Word := BitVec.ofInt 64 ((b.toNat : Int) - a.toNat)

/-- The low quad of the 128-bit product (R104), and imulq's `P` (R106). -/
def productLow (a b : Word) : Word := BitVec.ofNat 64 (a.toNat * b.toNat % 2 ^ 64)

/-- The high quad of the 128-bit product (R104). -/
def productHigh (a b : Word) : Word := BitVec.ofNat 64 (a.toNat * b.toNat / 2 ^ 64)

/-- divq's dividend: the pair with `high` in the high 64 bits (R108). -/
def dividendOf (low high : Word) : Nat := high.toNat * 2 ^ 64 + low.toNat

/-- idivq's quotient `q = sg * floor(|yv| / |xv|)`, rounded toward zero (R110). -/
def signedQuotient (xv yv : Int) : Int :=
  (if 0 < yv * xv then 1 else -1) * ((yv.natAbs / xv.natAbs : Nat) : Int)

/-- idivq's remainder `r = yv - xv * q` (R110). -/
def signedRemainder (xv yv : Int) : Int := yv - xv * signedQuotient xv yv

/-- `pat_64(2^s * u(b))`; the counts from 64 on are taken apart so that the power stays small (R123). -/
def shiftedLeft (s : Nat) (b : Word) : Word :=
  if s < 64 then BitVec.ofNat 64 (2 ^ s * b.toNat) else 0

/-- `pat_64(u(b) div 2^s)` (R125); counts from 64 on as in `shiftedLeft`. -/
def shiftedRight (s : Nat) (b : Word) : Word :=
  if s < 64 then BitVec.ofNat 64 (b.toNat / 2 ^ s) else 0

/-- `pat_64(floor(s(b) / 2^s))` (R127): for a positive divisor Lean's Int division is the floor. A count
above 63 gives what 63 gives (R130), so that the power stays small. -/
def shiftedRightSigned (s : Nat) (b : Word) : Word :=
  BitVec.ofInt 64 (b.toInt / (2 ^ (min s 63) : Nat))

end Sys2Proof.Machine
end

