-- ==== Sys2Proof/Machine/Flags.lean ====
section
/-! DEFINITION. The flag computations (spec/10_state.md R27 to R30). Every flag is computed from the
operands and the computed result, never from a register read back (R30). -/

namespace Sys2Proof.Machine

/-- ZF of a result (R100, R120, R185). -/
def zeroFlag (r : Word) : Bool := decide (r.toNat = 0)

/-- SF of a result: bit 63 (R100). -/
def signFlag (r : Word) : Bool := decide (2 ^ 63 ≤ r.toNat)

/-- An integer outside the signed 64-bit range (R100, R102). -/
def outOfSigned (n : Int) : Bool := decide (2 ^ 63 ≤ n ∨ n < -2 ^ 63)

/-- All four flags of addq (R100). The zero-extended immediate of R101 has `s(a) = u(X)`, so the same
conditions are R101's (log entry 31). -/
def addFlags (a b : Word) : Flags where
  zf := zeroFlag (sumOf a b)
  cf := decide (2 ^ 64 ≤ a.toNat + b.toNat)
  of := outOfSigned (a.toInt + b.toInt)
  sf := signFlag (sumOf a b)

/-- All four flags of subq, which computes `b - a` (R102, R103). -/
def subFlags (a b : Word) : Flags where
  zf := zeroFlag (differenceOf a b)
  cf := decide ((b.toNat : Int) - a.toNat < 0)
  of := outOfSigned (b.toInt - a.toInt)
  sf := signFlag (differenceOf a b)

/-- mulq's CF and OF in the literal reading: the low quad of the product is zero (R104). -/
def mulFlag (a b : Word) : Bool := decide (a.toNat * b.toNat % 2 ^ 64 = 0)

/-- imulq's CF: the unsigned product does not fit in 64 bits (R106). -/
def imulCarry (a b : Word) : Bool := decide (a.toNat * b.toNat ≠ (productLow a b).toNat)

/-- imulq's OF: the signed product does not fit in 64 bits (R106). -/
def imulOverflow (a b : Word) : Bool := decide (a.toInt * b.toInt ≠ (productLow a b).toInt)

/-- shlq's CF: bit `64 - s` of the value shifted, the last bit shifted out; 0 for a count of 64 or more, and
by the formula 0 for a count of 0 (R123, log entry 24). -/
def shiftLeftCarry (s : Nat) (b : Word) : Bool :=
  decide (s < 64) && decide (b.toNat / 2 ^ (64 - s) % 2 = 1)

/-- shldwq's CF: old bit 48, the last bit shifted out (R187, decision D22, log entry 23). -/
def shldwqCarry (old : Word) : Bool := old.getLsbD 48

/-- The conditions of the ten conditional jumps (R163). -/
inductive Condition
  | equal
  | notEqual
  | less
  | greaterEqual
  | lessEqual
  | greater
  | below
  | aboveEqual
  | belowEqual
  | above
deriving DecidableEq, Repr, Inhabited

/-- Whether the flags satisfy a condition (R163). -/
def Condition.holds (c : Condition) (f : Flags) : Bool :=
  match c with
  | .equal => f.zf
  | .notEqual => !f.zf
  | .less => f.sf != f.of
  | .greaterEqual => f.sf == f.of
  | .lessEqual => f.zf || f.sf != f.of
  | .greater => !f.zf && f.sf == f.of
  | .below => f.cf
  | .aboveEqual => !f.cf
  | .belowEqual => f.cf || f.zf
  | .above => !f.cf && !f.zf

end Sys2Proof.Machine
end

