-- ==== Sys2Proof/Machine/Operands.lean ====
section
/-! DEFINITION. The operand forms: immediates (spec/30_encoding.md R77), effective addresses
(spec/20_memory.md R47 to R49), the jump target (spec/43_jumps.md R160), and the width and extension of
what a load or store moves (spec/20_memory.md R46). -/

namespace Sys2Proof.Machine

/-- The immediate of format URR, zero-extended to 64 bits (R66). -/
def zeroExtended8 (x : Imm8) : Word := x.setWidth 64

/-- The immediate of format SRR, and a displacement, sign-extended to 64 bits (R67, R49). -/
def signExtended8 (x : Imm8) : Word := x.signExtend 64

/-- The immediate of format U16R, zero-extended to 64 bits (R68). -/
def zeroExtended16 (xy : Imm16) : Word := xy.setWidth 64

/-- The immediate of format S16R, sign-extended to 64 bits (R69). -/
def signExtended16 (xy : Imm16) : Word := xy.signExtend 64

/-- `A = pat_64(u(base) + scale * u(offset))` (R48), and with scale 1 the unscaled form (R47). -/
def scaledAddress (scale : Nat) (base offset : Word) : Word :=
  BitVec.ofNat 64 (base.toNat + scale * offset.toNat)

/-- `A = pat_64(u(base) + s(D))` (R49). -/
def displacedAddress (d : Imm8) (base : Word) : Word :=
  BitVec.ofInt 64 (d.toInt + base.toNat)

/-- `RelTarget() = pat_64(u(ip) + 4 * s(XYZ))`, relative to the jump's own address (R160). -/
def relativeTarget (ip : Word) (xyz : Imm24) : Word :=
  BitVec.ofInt 64 (ip.toNat + 4 * xyz.toInt)

/-- The widths a load or store moves (R46). -/
inductive Width
  | byte
  | word
  | long
  | quad
deriving DecidableEq, Repr, Inhabited

/-- The number of bytes `k` of a width (R13, R46). -/
def Width.bytes : Width → Nat
  | .byte => 1
  | .word => 2
  | .long => 4
  | .quad => 8

/-- How the fetched bytes are extended to 64 bits (R266). -/
inductive Extension
  | zero
  | sign
deriving DecidableEq, Repr, Inhabited

/-- The 64-bit pattern of the fetched value (R266): `zext_64` or `sext_64` of the `8k`-bit pattern with
unsigned value `v`. -/
def extended (e : Extension) (w : Width) (v : Nat) : Word :=
  match e with
  | .zero => BitVec.ofNat 64 v
  | .sign => (BitVec.ofNat (8 * w.bytes) v).signExtend 64

end Sys2Proof.Machine
end

