-- ==== Sys2Proof/Machine/Ops.lean ====
section
/-! DEFINITION. The named operations on the state that the meanings are written with: registers
(spec/10_state.md R21), sequential advance (R25), memory access with its checks (spec/20_memory.md R43,
R44), raising a fault (spec/60_exceptions.md R301), halting and the devices (spec/42_io_system.md R141,
R152, R153), and the draws of free values (log entry 34). -/

namespace Sys2Proof.Machine

/-- The index of `%r` in `gpr`, for `r` other than 0. -/
def registerSlot (r : Reg) (h : r ≠ 0) : Fin 255 :=
  ⟨r.toNat - 1, by have := r.isLt; have : r.toNat ≠ 0 := fun e => h (BitVec.eq_of_toNat_eq (by simpa using e)); omega⟩

/-- `x[r]` (R21): the zero register reads as zero. -/
def State.readReg (s : State) (r : Reg) : Word :=
  if h : r = 0 then 0 else s.gpr.get (registerSlot r h)

/-- The registers after `x[r] <- v` (R21): a write to the zero register is discarded. -/
def writtenRegisters (g : Vector Word 255) (r : Reg) (v : Word) : Vector Word 255 :=
  if h : r = 0 then g else g.set (registerSlot r h).val v (registerSlot r h).isLt

/-- `x[r] <- v` (R21). -/
def State.writeReg (s : State) (r : Reg) (v : Word) : State :=
  { s with gpr := writtenRegisters s.gpr r v }

/-- `ip <- target`. -/
def State.setIp (s : State) (target : Word) : State := { s with ip := target }

/-- Sequential advance `ip <- pat_64(u(ip) + 4)` (R25), wrapping at 2^64 (log entry 25). -/
def State.advance (s : State) : State := s.setIp (s.ip + 4)

/-- The flags replaced as a whole. -/
def State.setFlags (s : State) (f : Flags) : State := { s with flags := f }

/-- The memory replaced as a whole. -/
def State.setMem (s : State) (m : Memory) : State := { s with mem := m }

/-- `raise <Fault>(info)` (R301): the run status becomes faulted, nothing else changes, `%ip` stays at the
faulting instruction. There is no handler and no return (R313, R314). -/
def State.raise (s : State) (f : RaisedFault) : State := { s with status := .faulted f }

/-- The numeric code of a fault (R302 to R308): the spec's own label; no register holds it. -/
def RaisedFault.code : RaisedFault → Nat
  | .illegalInstruction _ => 1
  | .alignmentFault _ => 2
  | .memoryAccessFault _ => 3
  | .divideByZero => 4
  | .divideOverflow => 5
  | .registerIndexFault _ => 6
  | .unknownTrap _ => 7

/-- The memory that `Halt(code)` leaves: the code byte at `LAST_CELL` if the platform has one (R146). -/
def haltedMemory (s : State) (code : Byte) : Memory :=
  match s.platform.lastCell with
  | none => s.mem
  | some l => s.mem.write l.toNat code

/-- `Halt(code)` (R153): the run status becomes halted, `%ip` is not advanced. -/
def State.halt (s : State) (code : Byte) : State :=
  { s with status := .halted code, mem := haltedMemory s code }

/-- `Output(b)` (R152). -/
def State.pushOutput (s : State) (b : Byte) : State := { s with output := s.output ++ [b] }

/-- The environment supplies further input bytes between two steps (R141, log entry 10). -/
def State.supplyInput (s : State) (bs : List Byte) : State := { s with input := s.input ++ bs }

/-- The environment puts further host answers ready between two steps (log entry 16). -/
def State.supplyReplies (s : State) (rs : List HostReply) : State :=
  { s with hostReplies := s.hostReplies ++ rs }

/-- `MemRead(addr, n)` as `u` of the pattern read (R43): alignment, then admission, then the bytes, big
endian. For `n = 1` the alignment check cannot fail. -/
def State.memRead (s : State) (a : Word) (n : Nat) : Except RaisedFault Nat :=
  if a.toNat % n ≠ 0 then .error (.alignmentFault a)
  else if s.platform.admits a n then .ok (bigEndianValue (s.mem.readBytes a n))
  else .error (.memoryAccessFault a)

/-- `MemWrite(addr, n, v)` with `v` the low `n` bytes of a number (R44): both checks come before any byte is
written. -/
def State.memWrite (s : State) (a : Word) (n : Nat) (v : Nat) : Except RaisedFault State :=
  if a.toNat % n ≠ 0 then .error (.alignmentFault a)
  else if s.platform.admits a n then .ok (s.setMem (s.mem.writeBytes a (bigEndianBytes n v)))
  else .error (.memoryAccessFault a)

/-- The end of every instruction that neither jumps, halts nor faults (R25). -/
def finish (s : State) : Result := .next s.advance

/-- The outcome of raising a fault (R301): a next state, stopped for good. -/
def raised (s : State) (f : RaisedFault) : Result := .next (s.raise f)

/-- One register written, the given flags, sequential advance: the shape of addq, subq, the logic
instructions and the load-immediates. -/
def putResult (s : State) (z : Reg) (r : Word) (f : Flags) : Result :=
  finish ((s.writeReg z r).setFlags f)

/-- Flags with ZF replaced: for the instructions whose section names ZF alone (R28). -/
def Flags.withZero (f : Flags) (zf : Bool) : Flags := { f with zf := zf }

/-- Flags with CF replaced. -/
def Flags.withCarry (f : Flags) (cf : Bool) : Flags := { f with cf := cf }

/-- Flags with CF and OF replaced: for mulq and imulq (R28). -/
def Flags.withCarryOverflow (f : Flags) (cf o : Bool) : Flags := { f with cf := cf, of := o }

/-- Four flags nothing constrains, drawn from the free values (`SILENT_FLAGS = arbitrary`, R29). -/
def arbitraryFlags (n : Nat) : Flags :=
  ⟨Config.freeFlag n, Config.freeFlag (n + 1), Config.freeFlag (n + 2), Config.freeFlag (n + 3)⟩

/-- The flags after an instruction whose section names none: unchanged by default, free under
`SILENT_FLAGS = arbitrary` (R29, log entry 14). -/
def State.silentFlags (s : State) : State :=
  match s.platform.silentFlags with
  | .unchanged => s
  | .arbitrary => { s with flags := arbitraryFlags s.draws, draws := s.draws + 4 }

/-- A load: address, checks, extension, destination (R230, R266, R268). -/
def load (w : Width) (e : Extension) (a : Word) (z : Reg) (s : State) : Result :=
  match s.memRead a w.bytes with
  | .error f => raised s f
  | .ok v => finish (s.writeReg z (extended e w v))

/-- A store of the low bytes of `v` (R200, R221, R223). -/
def store (w : Width) (a : Word) (v : Word) (s : State) : Result :=
  match s.memWrite a w.bytes v.toNat with
  | .error f => raised s f
  | .ok t => finish t

/-- A conditional relative jump (R163): taken to `RelTarget()`, else sequential advance. -/
def jumpIf (c : Condition) (xyz : Imm24) (s : State) : Result :=
  if c.holds s.flags then .next (s.setIp (relativeTarget s.ip xyz)) else finish s

end Sys2Proof.Machine
end

