-- ==== Sys2Proof/Machine/Arith.lean ====
section
/-! DEFINITION. Integer arithmetic (spec/40_integer_arithmetic.md R100 to R115): addq, subq, mulq, imulq, divq, idivq. -/

namespace Sys2Proof.Machine

/-- addq with first operand `a` (R100, R101). -/
def addInto (a : Word) (y z : Reg) (s : State) : Result :=
  putResult s z (sumOf a (s.readReg y)) (addFlags a (s.readReg y))

/-- subq with first operand `a`: `%y - a` (R102, R103, R113). -/
def subInto (a : Word) (y z : Reg) (s : State) : Result :=
  putResult s z (differenceOf a (s.readReg y)) (subFlags a (s.readReg y))

/-- The flags mulq leaves: CF and OF by its table, or free under `MULQ_FLAGS = arbitrary`; ZF and SF
unchanged (R104, log entry 13). -/
def State.afterMulqFlags (s : State) (a b : Word) : State :=
  match s.platform.mulqFlags with
  | .literal => s.setFlags (s.flags.withCarryOverflow (mulFlag a b) (mulFlag a b))
  | .arbitrary =>
    { s with
      flags := s.flags.withCarryOverflow (Config.freeFlag s.draws) (Config.freeFlag (s.draws + 1))
      draws := s.draws + 2 }

/-- mulq with first operand `a`: the 128-bit product to the pair `%z` (low quad), `%(z+1)` (high quad)
(R104, R105); register 256 does not exist (R22). -/
def mulInto (a : Word) (y z : Reg) (s : State) : Result :=
  if z = 255 then raised s (.registerIndexFault z)
  else
    finish
      (((s.writeReg z (productLow a (s.readReg y))).writeReg (z + 1) (productHigh a (s.readReg y))).afterMulqFlags
        a (s.readReg y))

/-- imulq with first operand `a` (R106, R107). -/
def signedMulInto (a : Word) (y z : Reg) (s : State) : Result :=
  putResult s z (productLow a (s.readReg y))
    (s.flags.withCarryOverflow (imulCarry a (s.readReg y)) (imulOverflow a (s.readReg y)))

/-- divq by `d`: dividend `%(y+1)%y`, quotient to `%(z+1)%z`, remainder to `%(z+2)` (R108, R109); the checks
in the order of R310. -/
def divInto (d : Nat) (y z : Reg) (s : State) : Result :=
  if y = 255 then raised s (.registerIndexFault y)
  else if 254 ≤ z.toNat then raised s (.registerIndexFault z)
  else if d = 0 then raised s .divideByZero
  else
    let n := dividendOf (s.readReg y) (s.readReg (y + 1))
    finish
      ((((s.writeReg z (BitVec.ofNat 64 (n / d % 2 ^ 64))).writeReg (z + 1) (BitVec.ofNat 64 (n / d / 2 ^ 64))).writeReg
        (z + 2) (BitVec.ofNat 64 (n % d))).silentFlags)

/-- idivq by `xv`: quotient rounded toward zero to `%z`, remainder to `%(z+1)` (R110, R111); -2^63 by -1
faults unless `IDIVQ_OVERFLOW = wrap` (R115, log entry 12); the checks in the order of R310. -/
def signedDivInto (xv : Int) (y z : Reg) (s : State) : Result :=
  if z = 255 then raised s (.registerIndexFault z)
  else if xv = 0 then raised s .divideByZero
  else
    let yv := (s.readReg y).toInt
    if signedQuotient xv yv = 2 ^ 63 ∧ s.platform.idivqOverflow = .fault then raised s .divideOverflow
    else
      finish
        (((s.writeReg z (BitVec.ofInt 64 (signedQuotient xv yv))).writeReg (z + 1)
          (BitVec.ofInt 64 (signedRemainder xv yv))).silentFlags)

/-- `addq %x, %y, %z` (R100): the sum of the two operands to `%z`, all four flags. -/
def execAddqReg (x y z : Reg) (s : State) : Result :=
  addInto (s.readReg x) y z s

/-- `addq x, %y, %z` (R101): the sum of the two operands to `%z`, all four flags, the first operand a zero-extended immediate. -/
def execAddqImm (x : Imm8) (y z : Reg) (s : State) : Result :=
  addInto (zeroExtended8 x) y z s

/-- `subq %x, %y, %z` (R102): the second operand minus the first to `%z`, all four flags. -/
def execSubqReg (x y z : Reg) (s : State) : Result :=
  subInto (s.readReg x) y z s

/-- `subq x, %y, %z` (R103): the second operand minus the first to `%z`, all four flags, the first operand a zero-extended immediate. -/
def execSubqImm (x : Imm8) (y z : Reg) (s : State) : Result :=
  subInto (zeroExtended8 x) y z s

/-- `mulq %x, %y, %z` (R104): the unsigned 128-bit product to `%z` and `%(z+1)`. -/
def execMulqReg (x y z : Reg) (s : State) : Result :=
  mulInto (s.readReg x) y z s

/-- `mulq x, %y, %z` (R105): the unsigned 128-bit product to `%z` and `%(z+1)`, the first operand a zero-extended immediate. -/
def execMulqImm (x : Imm8) (y z : Reg) (s : State) : Result :=
  mulInto (zeroExtended8 x) y z s

/-- `imulq %x, %y, %z` (R106): the 64-bit product to `%z`, CF and OF. -/
def execImulqReg (x y z : Reg) (s : State) : Result :=
  signedMulInto (s.readReg x) y z s

/-- `imulq x, %y, %z` (R107): the 64-bit product to `%z`, CF and OF, the first operand a sign-extended immediate. -/
def execImulqImm (x : Imm8) (y z : Reg) (s : State) : Result :=
  signedMulInto (signExtended8 x) y z s

/-- `divq %x, %y, %z` (R108): unsigned 128-bit division by `%x`. -/
def execDivqReg (x y z : Reg) (s : State) : Result :=
  divInto (s.readReg x).toNat y z s

/-- `divq x, %y, %z` (R109): unsigned 128-bit division by `u(x)`. -/
def execDivqImm (x : Imm8) (y z : Reg) (s : State) : Result :=
  divInto x.toNat y z s

/-- `idivq %x, %y, %z` (R110): signed 64-bit division by `s(%x)`. -/
def execIdivqReg (x y z : Reg) (s : State) : Result :=
  signedDivInto (s.readReg x).toInt y z s

/-- `idivq x, %y, %z` (R111): signed 64-bit division by `s(x)`. -/
def execIdivqImm (x : Imm8) (y z : Reg) (s : State) : Result :=
  signedDivInto x.toInt y z s

end Sys2Proof.Machine
end

