-- ==== Sys2Proof/Machine/Jumps.lean ====
section
/-! DEFINITION. Jumps (spec/43_jumps.md R160 to R173). A jump writes no flag and never faults by itself (R176). -/

namespace Sys2Proof.Machine

/-- `jmp %x, %y` (R161): jumps to the address in `%x`, read first (R23), and leaves the return address in `%y`. -/
def execJmpReg (x y : Reg) (s : State) : Result :=
  .next ((s.writeReg y (s.ip + 4)).setIp (s.readReg x))

/-- `jmp xyz` (R162): jumps to the relative target; no link. -/
def execJmpRel (xyz : Imm24) (s : State) : Result :=
  .next (s.setIp (relativeTarget s.ip xyz))

/-- `je xyz` (R164): taken iff ZF = 1. -/
def execJe (xyz : Imm24) (s : State) : Result :=
  jumpIf .equal xyz s

/-- `jz xyz` (R164): taken iff ZF = 1. Another name of je (R94). -/
def execJz (xyz : Imm24) (s : State) : Result :=
  jumpIf .equal xyz s

/-- `jne xyz` (R165): taken iff ZF = 0. -/
def execJne (xyz : Imm24) (s : State) : Result :=
  jumpIf .notEqual xyz s

/-- `jnz xyz` (R165): taken iff ZF = 0. Another name of jne (R94). -/
def execJnz (xyz : Imm24) (s : State) : Result :=
  jumpIf .notEqual xyz s

/-- `jl xyz` (R166): taken iff SF ≠ OF. -/
def execJl (xyz : Imm24) (s : State) : Result :=
  jumpIf .less xyz s

/-- `jnge xyz` (R166): taken iff SF ≠ OF. Another name of jl (R94). -/
def execJnge (xyz : Imm24) (s : State) : Result :=
  jumpIf .less xyz s

/-- `jge xyz` (R167): taken iff SF = OF. -/
def execJge (xyz : Imm24) (s : State) : Result :=
  jumpIf .greaterEqual xyz s

/-- `jnl xyz` (R167): taken iff SF = OF. Another name of jge (R94). -/
def execJnl (xyz : Imm24) (s : State) : Result :=
  jumpIf .greaterEqual xyz s

/-- `jle xyz` (R168): taken iff ZF = 1 or SF ≠ OF. -/
def execJle (xyz : Imm24) (s : State) : Result :=
  jumpIf .lessEqual xyz s

/-- `jng xyz` (R168): taken iff ZF = 1 or SF ≠ OF. Another name of jle (R94). -/
def execJng (xyz : Imm24) (s : State) : Result :=
  jumpIf .lessEqual xyz s

/-- `jg xyz` (R169): taken iff ZF = 0 and SF = OF. -/
def execJg (xyz : Imm24) (s : State) : Result :=
  jumpIf .greater xyz s

/-- `jnle xyz` (R169): taken iff ZF = 0 and SF = OF. Another name of jg (R94). -/
def execJnle (xyz : Imm24) (s : State) : Result :=
  jumpIf .greater xyz s

/-- `jb xyz` (R170): taken iff CF = 1. -/
def execJb (xyz : Imm24) (s : State) : Result :=
  jumpIf .below xyz s

/-- `jnae xyz` (R170): taken iff CF = 1. Another name of jb (R94). -/
def execJnae (xyz : Imm24) (s : State) : Result :=
  jumpIf .below xyz s

/-- `jae xyz` (R171): taken iff CF = 0. -/
def execJae (xyz : Imm24) (s : State) : Result :=
  jumpIf .aboveEqual xyz s

/-- `jnb xyz` (R171): taken iff CF = 0. Another name of jae (R94). -/
def execJnb (xyz : Imm24) (s : State) : Result :=
  jumpIf .aboveEqual xyz s

/-- `jbe xyz` (R172): taken iff CF = 1 or ZF = 1. -/
def execJbe (xyz : Imm24) (s : State) : Result :=
  jumpIf .belowEqual xyz s

/-- `jna xyz` (R172): taken iff CF = 1 or ZF = 1. Another name of jbe (R94). -/
def execJna (xyz : Imm24) (s : State) : Result :=
  jumpIf .belowEqual xyz s

/-- `ja xyz` (R173): taken iff CF = 0 and ZF = 0. -/
def execJa (xyz : Imm24) (s : State) : Result :=
  jumpIf .above xyz s

/-- `jnbe xyz` (R173): taken iff CF = 0 and ZF = 0. Another name of ja (R94). -/
def execJnbe (xyz : Imm24) (s : State) : Result :=
  jumpIf .above xyz s

end Sys2Proof.Machine
end

