-- ==== Sys2Proof/Machine/LoadImmediate.lean ====
section
/-! DEFINITION. Load-immediate instructions (spec/44_load_immediate.md R185 to R187); none touches memory. -/

namespace Sys2Proof.Machine

/-- `old[47:0] ‖ XY`: shldwq's result (R187). -/
def shiftedIn (old : Word) (xy : Imm16) : Word := old.extractLsb' 0 48 ++ xy

/-- `ldswq xy, %z` (R185): the sign-extended immediate to `%z`, ZF. -/
def execLdswq (xy : Imm16) (z : Reg) (s : State) : Result :=
  putResult s z (signExtended16 xy) (s.flags.withZero (zeroFlag (signExtended16 xy)))

/-- `ldzwq xy, %z` (R186): the zero-extended immediate to `%z`, ZF. -/
def execLdzwq (xy : Imm16) (z : Reg) (s : State) : Result :=
  putResult s z (zeroExtended16 xy) (s.flags.withZero (zeroFlag (zeroExtended16 xy)))

/-- `shldwq xy, %z` (R187): `%z` shifted left by 16 with the immediate in the low 16 bits, CF and ZF; OF and SF unchanged. -/
def execShldwq (xy : Imm16) (z : Reg) (s : State) : Result :=
  putResult s z (shiftedIn (s.readReg z) xy)
    ((s.flags.withZero (zeroFlag (shiftedIn (s.readReg z) xy))).withCarry (shldwqCarry (s.readReg z)))

end Sys2Proof.Machine
end

