-- ==== Sys2Proof/Machine/Loads.lean ====
section
/-! DEFINITION. Loads (spec/46_loads.md R230 to R269): the address from the old registers, the checks, the extension, the destination. -/

namespace Sys2Proof.Machine

/-- `movq (%x, %y), %z` (R231): loads 8 bytes. -/
def execMovqLoad (x y z : Reg) (s : State) : Result :=
  load .quad .zero (scaledAddress 1 (s.readReg x) (s.readReg y)) z s

/-- `movzlq (%x, %y), %z` (R236): loads 4 bytes, zero-extended. -/
def execMovzlq (x y z : Reg) (s : State) : Result :=
  load .long .zero (scaledAddress 1 (s.readReg x) (s.readReg y)) z s

/-- `movzwq (%x, %y), %z` (R241): loads 2 bytes, zero-extended. -/
def execMovzwq (x y z : Reg) (s : State) : Result :=
  load .word .zero (scaledAddress 1 (s.readReg x) (s.readReg y)) z s

/-- `movzbq (%x, %y), %z` (R246): loads 1 byte, zero-extended. -/
def execMovzbq (x y z : Reg) (s : State) : Result :=
  load .byte .zero (scaledAddress 1 (s.readReg x) (s.readReg y)) z s

/-- `movslq (%x, %y), %z` (R251): loads 4 bytes, sign-extended. -/
def execMovslq (x y z : Reg) (s : State) : Result :=
  load .long .sign (scaledAddress 1 (s.readReg x) (s.readReg y)) z s

/-- `movswq (%x, %y), %z` (R256): loads 2 bytes, sign-extended. -/
def execMovswq (x y z : Reg) (s : State) : Result :=
  load .word .sign (scaledAddress 1 (s.readReg x) (s.readReg y)) z s

/-- `movsbq (%x, %y), %z` (R261): loads 1 byte, sign-extended. -/
def execMovsbq (x y z : Reg) (s : State) : Result :=
  load .byte .sign (scaledAddress 1 (s.readReg x) (s.readReg y)) z s

/-- `movq x(%y), %z` (R232): loads 8 bytes. -/
def execMovqLoadDisp (x : Imm8) (y z : Reg) (s : State) : Result :=
  load .quad .zero (displacedAddress x (s.readReg y)) z s

/-- `movzlq x(%y), %z` (R237): loads 4 bytes, zero-extended. -/
def execMovzlqDisp (x : Imm8) (y z : Reg) (s : State) : Result :=
  load .long .zero (displacedAddress x (s.readReg y)) z s

/-- `movzwq x(%y), %z` (R242): loads 2 bytes, zero-extended. -/
def execMovzwqDisp (x : Imm8) (y z : Reg) (s : State) : Result :=
  load .word .zero (displacedAddress x (s.readReg y)) z s

/-- `movzbq x(%y), %z` (R247): loads 1 byte, zero-extended. -/
def execMovzbqDisp (x : Imm8) (y z : Reg) (s : State) : Result :=
  load .byte .zero (displacedAddress x (s.readReg y)) z s

/-- `movslq x(%y), %z` (R252): loads 4 bytes, sign-extended. -/
def execMovslqDisp (x : Imm8) (y z : Reg) (s : State) : Result :=
  load .long .sign (displacedAddress x (s.readReg y)) z s

/-- `movswq x(%y), %z` (R257): loads 2 bytes, sign-extended. -/
def execMovswqDisp (x : Imm8) (y z : Reg) (s : State) : Result :=
  load .word .sign (displacedAddress x (s.readReg y)) z s

/-- `movsbq x(%y), %z` (R262): loads 1 byte, sign-extended. -/
def execMovsbqDisp (x : Imm8) (y z : Reg) (s : State) : Result :=
  load .byte .sign (displacedAddress x (s.readReg y)) z s

/-- `movq (%x, %y, 2), %z` (R233): loads 8 bytes. -/
def execMovqLoadScaled2 (x y z : Reg) (s : State) : Result :=
  load .quad .zero (scaledAddress 2 (s.readReg x) (s.readReg y)) z s

/-- `movzlq (%x, %y, 2), %z` (R238): loads 4 bytes, zero-extended. -/
def execMovzlqScaled2 (x y z : Reg) (s : State) : Result :=
  load .long .zero (scaledAddress 2 (s.readReg x) (s.readReg y)) z s

/-- `movzwq (%x, %y, 2), %z` (R243): loads 2 bytes, zero-extended. -/
def execMovzwqScaled2 (x y z : Reg) (s : State) : Result :=
  load .word .zero (scaledAddress 2 (s.readReg x) (s.readReg y)) z s

/-- `movzbq (%x, %y, 2), %z` (R248): loads 1 byte, zero-extended. -/
def execMovzbqScaled2 (x y z : Reg) (s : State) : Result :=
  load .byte .zero (scaledAddress 2 (s.readReg x) (s.readReg y)) z s

/-- `movslq (%x, %y, 2), %z` (R253): loads 4 bytes, sign-extended. -/
def execMovslqScaled2 (x y z : Reg) (s : State) : Result :=
  load .long .sign (scaledAddress 2 (s.readReg x) (s.readReg y)) z s

/-- `movswq (%x, %y, 2), %z` (R258): loads 2 bytes, sign-extended. -/
def execMovswqScaled2 (x y z : Reg) (s : State) : Result :=
  load .word .sign (scaledAddress 2 (s.readReg x) (s.readReg y)) z s

/-- `movsbq (%x, %y, 2), %z` (R263): loads 1 byte, sign-extended. -/
def execMovsbqScaled2 (x y z : Reg) (s : State) : Result :=
  load .byte .sign (scaledAddress 2 (s.readReg x) (s.readReg y)) z s

/-- `movq (%x, %y, 4), %z` (R234): loads 8 bytes. -/
def execMovqLoadScaled4 (x y z : Reg) (s : State) : Result :=
  load .quad .zero (scaledAddress 4 (s.readReg x) (s.readReg y)) z s

/-- `movzlq (%x, %y, 4), %z` (R239): loads 4 bytes, zero-extended. -/
def execMovzlqScaled4 (x y z : Reg) (s : State) : Result :=
  load .long .zero (scaledAddress 4 (s.readReg x) (s.readReg y)) z s

/-- `movzwq (%x, %y, 4), %z` (R244): loads 2 bytes, zero-extended. -/
def execMovzwqScaled4 (x y z : Reg) (s : State) : Result :=
  load .word .zero (scaledAddress 4 (s.readReg x) (s.readReg y)) z s

/-- `movzbq (%x, %y, 4), %z` (R249): loads 1 byte, zero-extended. -/
def execMovzbqScaled4 (x y z : Reg) (s : State) : Result :=
  load .byte .zero (scaledAddress 4 (s.readReg x) (s.readReg y)) z s

/-- `movslq (%x, %y, 4), %z` (R254): loads 4 bytes, sign-extended. -/
def execMovslqScaled4 (x y z : Reg) (s : State) : Result :=
  load .long .sign (scaledAddress 4 (s.readReg x) (s.readReg y)) z s

/-- `movswq (%x, %y, 4), %z` (R259): loads 2 bytes, sign-extended. -/
def execMovswqScaled4 (x y z : Reg) (s : State) : Result :=
  load .word .sign (scaledAddress 4 (s.readReg x) (s.readReg y)) z s

/-- `movsbq (%x, %y, 4), %z` (R264): loads 1 byte, sign-extended. -/
def execMovsbqScaled4 (x y z : Reg) (s : State) : Result :=
  load .byte .sign (scaledAddress 4 (s.readReg x) (s.readReg y)) z s

/-- `movq (%x, %y, 8), %z` (R235): loads 8 bytes. -/
def execMovqLoadScaled8 (x y z : Reg) (s : State) : Result :=
  load .quad .zero (scaledAddress 8 (s.readReg x) (s.readReg y)) z s

/-- `movzlq (%x, %y, 8), %z` (R240): loads 4 bytes, zero-extended. -/
def execMovzlqScaled8 (x y z : Reg) (s : State) : Result :=
  load .long .zero (scaledAddress 8 (s.readReg x) (s.readReg y)) z s

/-- `movzwq (%x, %y, 8), %z` (R245): loads 2 bytes, zero-extended. -/
def execMovzwqScaled8 (x y z : Reg) (s : State) : Result :=
  load .word .zero (scaledAddress 8 (s.readReg x) (s.readReg y)) z s

/-- `movzbq (%x, %y, 8), %z` (R250): loads 1 byte, zero-extended. -/
def execMovzbqScaled8 (x y z : Reg) (s : State) : Result :=
  load .byte .zero (scaledAddress 8 (s.readReg x) (s.readReg y)) z s

/-- `movslq (%x, %y, 8), %z` (R255): loads 4 bytes, sign-extended. -/
def execMovslqScaled8 (x y z : Reg) (s : State) : Result :=
  load .long .sign (scaledAddress 8 (s.readReg x) (s.readReg y)) z s

/-- `movswq (%x, %y, 8), %z` (R260): loads 2 bytes, sign-extended. -/
def execMovswqScaled8 (x y z : Reg) (s : State) : Result :=
  load .word .sign (scaledAddress 8 (s.readReg x) (s.readReg y)) z s

/-- `movsbq (%x, %y, 8), %z` (R265): loads 1 byte, sign-extended. -/
def execMovsbqScaled8 (x y z : Reg) (s : State) : Result :=
  load .byte .sign (scaledAddress 8 (s.readReg x) (s.readReg y)) z s

end Sys2Proof.Machine
end

