-- ==== Sys2Proof/Machine/LogicShift.lean ====
section
/-! DEFINITION. Bitwise logic and shifts (spec/41_logic_shift.md R120 to R130). Counts are not masked (R130). -/

namespace Sys2Proof.Machine

/-- A bitwise result: ZF alone is written (R120 to R122). -/
def logicInto (z : Reg) (r : Word) (s : State) : Result :=
  putResult s z r (s.flags.withZero (zeroFlag r))

/-- shlq by the count `c`: CF is the last bit shifted out, the flags the section does not name are silent
(R123, R124, R29). -/
def shiftLeftInto (c : Nat) (y z : Reg) (s : State) : Result :=
  let t := (s.writeReg z (shiftedLeft c (s.readReg y))).silentFlags
  finish (t.setFlags (t.flags.withCarry (shiftLeftCarry c (s.readReg y))))

/-- A right shift: the result to `%z`; the section names no flag (R125 to R128, R29). -/
def shiftRightInto (z : Reg) (r : Word) (s : State) : Result :=
  finish (s.writeReg z r).silentFlags

/-- `orq %x, %y, %z` (R121): bitwise or of the two registers to `%z`, ZF. -/
def execOrq (x y z : Reg) (s : State) : Result :=
  logicInto z (s.readReg x ||| s.readReg y) s

/-- `andq %x, %y, %z` (R120): bitwise and of the two registers to `%z`, ZF. -/
def execAndq (x y z : Reg) (s : State) : Result :=
  logicInto z (s.readReg x &&& s.readReg y) s

/-- `notq %x, %y` (R122): bitwise complement of `%x` to `%y`, ZF. -/
def execNotq (x y : Reg) (s : State) : Result :=
  logicInto y (~~~(s.readReg x)) s

/-- `shlq %x, %y, %z` (R123): `%y` shifted left by `u(%x)` to `%z`, CF. -/
def execShlqReg (x y z : Reg) (s : State) : Result :=
  shiftLeftInto (s.readReg x).toNat y z s

/-- `shlq x, %y, %z` (R124): `%y` shifted left by `u(x)` to `%z`, CF. -/
def execShlqImm (x : Imm8) (y z : Reg) (s : State) : Result :=
  shiftLeftInto x.toNat y z s

/-- `salq %x, %y, %z` (R123): `%y` shifted left by `u(%x)` to `%z`, CF. Another name of shlq (R94). -/
def execSalqReg (x y z : Reg) (s : State) : Result :=
  shiftLeftInto (s.readReg x).toNat y z s

/-- `salq x, %y, %z` (R124): `%y` shifted left by `u(x)` to `%z`, CF. Another name of shlq (R94). -/
def execSalqImm (x : Imm8) (y z : Reg) (s : State) : Result :=
  shiftLeftInto x.toNat y z s

/-- `shrq %x, %y, %z` (R125): `%y` shifted right by `u(%x)`, zeros in, to `%z`. -/
def execShrqReg (x y z : Reg) (s : State) : Result :=
  shiftRightInto z (shiftedRight (s.readReg x).toNat (s.readReg y)) s

/-- `shrq x, %y, %z` (R126): `%y` shifted right by `u(x)`, zeros in, to `%z`. -/
def execShrqImm (x : Imm8) (y z : Reg) (s : State) : Result :=
  shiftRightInto z (shiftedRight x.toNat (s.readReg y)) s

/-- `sarq %x, %y, %z` (R127): `%y` shifted right by `u(%x)`, sign bits in, to `%z`. -/
def execSarqReg (x y z : Reg) (s : State) : Result :=
  shiftRightInto z (shiftedRightSigned (s.readReg x).toNat (s.readReg y)) s

/-- `sarq x, %y, %z` (R128): `%y` shifted right by `u(x)`, sign bits in, to `%z`. -/
def execSarqImm (x : Imm8) (y z : Reg) (s : State) : Result :=
  shiftRightInto z (shiftedRightSigned x.toNat (s.readReg y)) s

end Sys2Proof.Machine
end

