-- ==== Sys2Proof/Machine/Stores.lean ====
section
/-! DEFINITION. Stores (spec/45_stores.md R200 to R223): the low bytes of `%x` to memory; no register and no flag is written. -/

namespace Sys2Proof.Machine

/-- `movq %x, (%y, %z)` (R201): stores 8 bytes. -/
def execMovqStore (x y z : Reg) (s : State) : Result :=
  store .quad (scaledAddress 1 (s.readReg y) (s.readReg z)) (s.readReg x) s

/-- `movl %x, (%y, %z)` (R206): stores the low 4 bytes. -/
def execMovl (x y z : Reg) (s : State) : Result :=
  store .long (scaledAddress 1 (s.readReg y) (s.readReg z)) (s.readReg x) s

/-- `movw %x, (%y, %z)` (R211): stores the low 2 bytes. -/
def execMovw (x y z : Reg) (s : State) : Result :=
  store .word (scaledAddress 1 (s.readReg y) (s.readReg z)) (s.readReg x) s

/-- `movb %x, (%y, %z)` (R216): stores the low 1 byte. -/
def execMovb (x y z : Reg) (s : State) : Result :=
  store .byte (scaledAddress 1 (s.readReg y) (s.readReg z)) (s.readReg x) s

/-- `movq %x, y(%z)` (R202): stores 8 bytes. -/
def execMovqStoreDisp (x : Reg) (y : Imm8) (z : Reg) (s : State) : Result :=
  store .quad (displacedAddress y (s.readReg z)) (s.readReg x) s

/-- `movl %x, y(%z)` (R207): stores the low 4 bytes. -/
def execMovlDisp (x : Reg) (y : Imm8) (z : Reg) (s : State) : Result :=
  store .long (displacedAddress y (s.readReg z)) (s.readReg x) s

/-- `movw %x, y(%z)` (R212): stores the low 2 bytes. -/
def execMovwDisp (x : Reg) (y : Imm8) (z : Reg) (s : State) : Result :=
  store .word (displacedAddress y (s.readReg z)) (s.readReg x) s

/-- `movb %x, y(%z)` (R217): stores the low 1 byte. -/
def execMovbDisp (x : Reg) (y : Imm8) (z : Reg) (s : State) : Result :=
  store .byte (displacedAddress y (s.readReg z)) (s.readReg x) s

/-- `movq %x, (%y, %z, 2)` (R203): stores 8 bytes. -/
def execMovqStoreScaled2 (x y z : Reg) (s : State) : Result :=
  store .quad (scaledAddress 2 (s.readReg y) (s.readReg z)) (s.readReg x) s

/-- `movl %x, (%y, %z, 2)` (R208): stores the low 4 bytes. -/
def execMovlScaled2 (x y z : Reg) (s : State) : Result :=
  store .long (scaledAddress 2 (s.readReg y) (s.readReg z)) (s.readReg x) s

/-- `movw %x, (%y, %z, 2)` (R213): stores the low 2 bytes. -/
def execMovwScaled2 (x y z : Reg) (s : State) : Result :=
  store .word (scaledAddress 2 (s.readReg y) (s.readReg z)) (s.readReg x) s

/-- `movb %x, (%y, %z, 2)` (R218): stores the low 1 byte. -/
def execMovbScaled2 (x y z : Reg) (s : State) : Result :=
  store .byte (scaledAddress 2 (s.readReg y) (s.readReg z)) (s.readReg x) s

/-- `movq %x, (%y, %z, 4)` (R204): stores 8 bytes. -/
def execMovqStoreScaled4 (x y z : Reg) (s : State) : Result :=
  store .quad (scaledAddress 4 (s.readReg y) (s.readReg z)) (s.readReg x) s

/-- `movl %x, (%y, %z, 4)` (R209): stores the low 4 bytes. -/
def execMovlScaled4 (x y z : Reg) (s : State) : Result :=
  store .long (scaledAddress 4 (s.readReg y) (s.readReg z)) (s.readReg x) s

/-- `movw %x, (%y, %z, 4)` (R214): stores the low 2 bytes. -/
def execMovwScaled4 (x y z : Reg) (s : State) : Result :=
  store .word (scaledAddress 4 (s.readReg y) (s.readReg z)) (s.readReg x) s

/-- `movb %x, (%y, %z, 4)` (R219): stores the low 1 byte. -/
def execMovbScaled4 (x y z : Reg) (s : State) : Result :=
  store .byte (scaledAddress 4 (s.readReg y) (s.readReg z)) (s.readReg x) s

/-- `movq %x, (%y, %z, 8)` (R205): stores 8 bytes. -/
def execMovqStoreScaled8 (x y z : Reg) (s : State) : Result :=
  store .quad (scaledAddress 8 (s.readReg y) (s.readReg z)) (s.readReg x) s

/-- `movl %x, (%y, %z, 8)` (R210): stores the low 4 bytes. -/
def execMovlScaled8 (x y z : Reg) (s : State) : Result :=
  store .long (scaledAddress 8 (s.readReg y) (s.readReg z)) (s.readReg x) s

/-- `movw %x, (%y, %z, 8)` (R215): stores the low 2 bytes. -/
def execMovwScaled8 (x y z : Reg) (s : State) : Result :=
  store .word (scaledAddress 8 (s.readReg y) (s.readReg z)) (s.readReg x) s

/-- `movb %x, (%y, %z, 8)` (R220): stores the low 1 byte. -/
def execMovbScaled8 (x y z : Reg) (s : State) : Result :=
  store .byte (scaledAddress 8 (s.readReg y) (s.readReg z)) (s.readReg x) s

end Sys2Proof.Machine
end

