-- ==== Sys2Proof/Machine/Trap.lean ====
section
/-! DEFINITION. The trap handler of the execution environment (spec/42_io_system.md R148 to R151, R155;
spec/60_exceptions.md R313, R314): the parameter block, the checks in the order of R310, the host's
answers, and what each trap writes. -/

namespace Sys2Proof.Machine

/-- The three fields of the 24-byte parameter block (R151). -/
structure ParamBlock where
  /-- The file descriptor, a signed 32-bit integer. -/
  fd : Int
  /-- The address of the buffer. -/
  buf : Word
  /-- The size of the buffer. -/
  nbyte : Nat
deriving DecidableEq, Repr, Inhabited

/-- The parameter block at `p`, checked as one 24-byte access that must be 8-aligned (R151, R310 step 7, log
entry 19); bytes 4 to 7 are not read. -/
def State.paramBlock (s : State) (p : Word) : Except RaisedFault ParamBlock :=
  if p.toNat % 8 ≠ 0 then .error (.alignmentFault p)
  else if s.platform.admits p 24 then
    .ok { fd := (BitVec.ofNat 32 (bigEndianValue (s.mem.readBytes p 4))).toInt
          buf := BitVec.ofNat 64 (bigEndianValue (s.mem.readBytes (p + 8) 8))
          nbyte := bigEndianValue (s.mem.readBytes (p + 16) 8) }
  else .error (.memoryAccessFault p)

/-- A read answer kept to the host's contract `k ≤ nbyte` (R149, log entry 16). -/
def boundedRead (nbyte : Nat) : ReadReply → ReadReply
  | .ok bs => .ok (bs.take nbyte)
  | .err e h => .err e h

/-- A write answer kept to the host's contract `k ≤ nbyte` (R150, log entry 16). -/
def boundedWrite (nbyte : Nat) : WriteReply → WriteReply
  | .ok k => .ok (min k nbyte)
  | .err e h => .err e h

/-- `HOST_IO.read(fd, nbyte)` (R149): the next answer put ready if it answers a read, else the oracle's. -/
def State.readReply (s : State) (fd : Int) (nbyte : Nat) : ReadReply :=
  boundedRead nbyte
    (match s.hostReplies with
      | .read r :: _ => r
      | _ => Config.hostRead s.hostLog fd nbyte)

/-- The answers still ready after a read. -/
def afterRead : List HostReply → List HostReply
  | .read _ :: rest => rest
  | rs => rs

/-- `HOST_IO.write(fd, data)` (R150): the next answer put ready if it answers a write, else the oracle's. -/
def State.writeReply (s : State) (fd : Int) (data : List Byte) : WriteReply :=
  boundedWrite data.length
    (match s.hostReplies with
      | .write r :: _ => r
      | _ => Config.hostWrite s.hostLog fd data)

/-- The answers still ready after a write. -/
def afterWrite : List HostReply → List HostReply
  | .write _ :: rest => rest
  | rs => rs

/-- The memory a handler can read: the bytes that exist (R53). -/
def State.existingCells (s : State) : List Host.Cell :=
  s.mem.filter fun c => s.platform.byteExists c.1

/-- `TRAP_HANDLER(n, P)` (R155): the next answer put ready if it answers a further trap, else the oracle's.
DESIGN CHOICE (log entry 18): the answer names the bytes the handler reads and writes, the oracle computes it
from the bytes that exist, and a read or write of one that does not raises MemoryAccessFault in `trapOther`. -/
def State.otherReply (s : State) (n p : Word) : TrapReply :=
  match s.hostReplies with
  | .other r :: _ => r
  | _ => Config.trapHandler s.hostLog n p s.existingCells

/-- The answers still ready after a further trap. -/
def afterOther : List HostReply → List HostReply
  | .other _ :: rest => rest
  | rs => rs

/-- The bytes a read delivers (R149). -/
def readData : ReadReply → List Byte
  | .ok bs => bs
  | .err _ _ => []

/-- The return value of a read: the count, or the negated error number (R149). -/
def readValue : ReadReply → Word
  | .ok bs => BitVec.ofNat 64 bs.length
  | .err e _ => BitVec.ofInt 64 (-(e : Int))

/-- The return value of a write: the count, or the negated error number (R150). -/
def writeValue : WriteReply → Word
  | .ok k => BitVec.ofNat 64 k
  | .err e _ => BitVec.ofInt 64 (-(e : Int))

/-- One exchange with the host recorded, and the answers then still ready. -/
def State.recordHost (s : State) (e : HostEvent) (rest : List HostReply) : State :=
  { s with hostLog := s.hostLog ++ [e], hostReplies := rest }

/-- The end of a trap: the return value to `%z` and the next instruction (R148, R314). -/
def trapReturn (s : State) (z : Reg) (rv : Word) : Result := finish (s.writeReg z rv)

/-- `TrapRead(P)` (R149): block, whole buffer checked, host asked, delivered bytes stored. -/
def trapRead (p : Word) (z : Reg) (s : State) : Result :=
  match s.paramBlock p with
  | .error f => raised s f
  | .ok b =>
    match s.platform.firstUnadmitted b.buf b.nbyte with
    | some a => raised s (.memoryAccessFault a)
    | none =>
      trapReturn
        ((s.setMem (s.mem.writeBytes b.buf (readData (s.readReply b.fd b.nbyte)))).recordHost
          (.read b.fd b.nbyte (s.readReply b.fd b.nbyte)) (afterRead s.hostReplies))
        z (readValue (s.readReply b.fd b.nbyte))

/-- `TrapWrite(P)` (R150): block, whole buffer checked and read, host asked; memory is not changed. -/
def trapWrite (p : Word) (z : Reg) (s : State) : Result :=
  match s.paramBlock p with
  | .error f => raised s f
  | .ok b =>
    match s.platform.firstUnadmitted b.buf b.nbyte with
    | some a => raised s (.memoryAccessFault a)
    | none =>
      trapReturn
        (s.recordHost
          (.write b.fd (s.mem.readBytes b.buf b.nbyte) (s.writeReply b.fd (s.mem.readBytes b.buf b.nbyte)))
          (afterWrite s.hostReplies))
        z (writeValue (s.writeReply b.fd (s.mem.readBytes b.buf b.nbyte)))

/-- The first of a handler's byte accesses whose byte does not exist (R53, R304). -/
def firstUnadmittedAccess (pl : Platform) (accesses : List Word) : Option Word :=
  accesses.find? fun a => !pl.admits a 1

/-- Any other trap number (R155): `UnknownTrap(n)` unless the platform supplies a handler for it, whose
answer says the bytes it reads and writes and the value it returns. An access to a byte that does not exist
raises MemoryAccessFault (R53), checked before anything is written (R314, log entry 18). -/
def trapOther (n p : Word) (z : Reg) (s : State) : Result :=
  if n ∈ s.platform.extraTraps then
    match firstUnadmittedAccess s.platform (s.otherReply n p).accesses with
    | some a => raised s (.memoryAccessFault a)
    | none =>
      trapReturn
        ((s.setMem (s.mem.writeCells (s.otherReply n p).writes)).recordHost
          (.other n p (s.otherReply n p)) (afterOther s.hostReplies))
        z (s.otherReply n p).value
  else raised s (.unknownTrap n)

end Sys2Proof.Machine
end

