-- ==== Sys2Proof/Machine/System.lean ====
section
/-! DEFINITION. nop, getc, putc, halt and trap (spec/42_io_system.md R140 to R155); none writes a flag. -/

namespace Sys2Proof.Machine

/-- What getc puts into its destination for the input byte `c` (R142, log entry 11): bits 63:8 are cleared,
kept, or free, as `GETC_UPPER` says. -/
def getcValue (s : State) (x : Reg) (c : Byte) : Word :=
  match s.platform.getcUpper with
  | .zero => c.setWidth 64
  | .keep => (s.readReg x).extractLsb' 8 56 ++ c
  | .any => (Config.freeWord s.draws).extractLsb' 8 56 ++ c

/-- The count of free values drawn once getc has completed. -/
def getcDraws (s : State) : Nat :=
  match s.platform.getcUpper with
  | .zero => s.draws
  | .keep => s.draws
  | .any => s.draws + 1

/-- The state once `Input()` has given the byte `c` and left `rest`, and `c` is in `%x` (R141, R142). -/
def State.consumeInput (s : State) (x : Reg) (c : Byte) (rest : List Byte) : State :=
  { s.writeReg x (getcValue s x c) with input := rest, draws := getcDraws s }

/-- `nop` (R140): no effect but the advance of `%ip`. -/
def execNop (s : State) : Result :=
  finish s

/-- `getc %x` (R142): the next input byte to `%x`; while there is none the machine waits, which changes nothing (R141, log entry 10). -/
def execGetc (x : Reg) (s : State) : Result :=
  match s.input with
  | [] => .next s
  | c :: rest => finish (s.consumeInput x c rest)

/-- `putc %x` (R143): the low byte of `%x` to the output device. -/
def execPutcReg (x : Reg) (s : State) : Result :=
  finish (s.pushOutput ((s.readReg x).extractLsb' 0 8))

/-- `putc x` (R147): the immediate byte to the output device. -/
def execPutcImm (x : Imm8) (s : State) : Result :=
  finish (s.pushOutput x)

/-- `halt %x` (R144): halts with the low byte of `%x` as exit code. -/
def execHaltReg (x : Reg) (s : State) : Result :=
  .next (s.halt ((s.readReg x).extractLsb' 0 8))

/-- `halt x` (R145): halts with the immediate byte as exit code. -/
def execHaltImm (x : Imm8) (s : State) : Result :=
  .next (s.halt x)

/-- `trap %x, %y, %z` (R148): calls the environment: trap 0 is read, trap 1 is write, any other number is the platform's or unknown (R149, R150, R155); both registers are read as 64-bit values. -/
def execTrap (x y z : Reg) (s : State) : Result :=
  if s.readReg x = 0 then trapRead (s.readReg y) z s
  else if s.readReg x = 1 then trapWrite (s.readReg y) z s
  else trapOther (s.readReg x) (s.readReg y) z s

end Sys2Proof.Machine
end

