-- ==== Sys2Proof/Syntax.lean ====
section
/-! DEFINITION. The instructions of the ULM, one constructor per row of spec/opcode_table.json
(spec/30_encoding.md R78, R94). The fields are the bytes X, Y, Z as the row's format reads them
(R62 to R74), in the order of the assembler notation (R90): a register name or an immediate as it is
encoded. Bytes a format does not use are no fields (R82). The scale of a scaled form is in the
constructor, not in a field (R75). The twelve alias mnemonics of R94 have constructors of their own
(log entry 28): they have the words and the meaning of the first mnemonic. -/

namespace Sys2Proof

/-- One instruction (R78); the comment of a constructor gives its assembler notation, its opcode and the
rule of its meaning. -/
inductive Instr
  /-- `halt %x`, Op = 0x01, format R (R144). -/
  | haltReg (x : Reg)
  /-- `trap %x, %y, %z`, Op = 0x02, format RRR (R148). -/
  | trap (x y z : Reg)
  /-- `halt x`, Op = 0x09, format U8 (R145). -/
  | haltImm (x : Imm8)
  /-- `movq (%x, %y), %z`, Op = 0x10, format M(RR)R (R231). -/
  | movqLoad (x y z : Reg)
  /-- `movzlq (%x, %y), %z`, Op = 0x11, format M(RR)R (R236). -/
  | movzlq (x y z : Reg)
  /-- `movzwq (%x, %y), %z`, Op = 0x12, format M(RR)R (R241). -/
  | movzwq (x y z : Reg)
  /-- `movzbq (%x, %y), %z`, Op = 0x13, format M(RR)R (R246). -/
  | movzbq (x y z : Reg)
  /-- `movslq (%x, %y), %z`, Op = 0x15, format M(RR)R (R251). -/
  | movslq (x y z : Reg)
  /-- `movswq (%x, %y), %z`, Op = 0x16, format M(RR)R (R256). -/
  | movswq (x y z : Reg)
  /-- `movsbq (%x, %y), %z`, Op = 0x17, format M(RR)R (R261). -/
  | movsbq (x y z : Reg)
  /-- `movq x(%y), %z`, Op = 0x18, format M(SR)R (R232). -/
  | movqLoadDisp (x : Imm8) (y z : Reg)
  /-- `movzlq x(%y), %z`, Op = 0x19, format M(SR)R (R237). -/
  | movzlqDisp (x : Imm8) (y z : Reg)
  /-- `movzwq x(%y), %z`, Op = 0x1A, format M(SR)R (R242). -/
  | movzwqDisp (x : Imm8) (y z : Reg)
  /-- `movzbq x(%y), %z`, Op = 0x1B, format M(SR)R (R247). -/
  | movzbqDisp (x : Imm8) (y z : Reg)
  /-- `movslq x(%y), %z`, Op = 0x1D, format M(SR)R (R252). -/
  | movslqDisp (x : Imm8) (y z : Reg)
  /-- `movswq x(%y), %z`, Op = 0x1E, format M(SR)R (R257). -/
  | movswqDisp (x : Imm8) (y z : Reg)
  /-- `movsbq x(%y), %z`, Op = 0x1F, format M(SR)R (R262). -/
  | movsbqDisp (x : Imm8) (y z : Reg)
  /-- `movq %x, (%y, %z)`, Op = 0x20, format RM(RR) (R201). -/
  | movqStore (x y z : Reg)
  /-- `movl %x, (%y, %z)`, Op = 0x21, format RM(RR) (R206). -/
  | movl (x y z : Reg)
  /-- `movw %x, (%y, %z)`, Op = 0x22, format RM(RR) (R211). -/
  | movw (x y z : Reg)
  /-- `movb %x, (%y, %z)`, Op = 0x23, format RM(RR) (R216). -/
  | movb (x y z : Reg)
  /-- `movq %x, y(%z)`, Op = 0x28, format RM(SR) (R202). -/
  | movqStoreDisp (x : Reg) (y : Imm8) (z : Reg)
  /-- `movl %x, y(%z)`, Op = 0x29, format RM(SR) (R207). -/
  | movlDisp (x : Reg) (y : Imm8) (z : Reg)
  /-- `movw %x, y(%z)`, Op = 0x2A, format RM(SR) (R212). -/
  | movwDisp (x : Reg) (y : Imm8) (z : Reg)
  /-- `movb %x, y(%z)`, Op = 0x2B, format RM(SR) (R217). -/
  | movbDisp (x : Reg) (y : Imm8) (z : Reg)
  /-- `addq %x, %y, %z`, Op = 0x30, format RRR (R100). -/
  | addqReg (x y z : Reg)
  /-- `subq %x, %y, %z`, Op = 0x31, format RRR (R102). -/
  | subqReg (x y z : Reg)
  /-- `mulq %x, %y, %z`, Op = 0x32, format RRR (R104). -/
  | mulqReg (x y z : Reg)
  /-- `divq %x, %y, %z`, Op = 0x33, format RRR (R108). -/
  | divqReg (x y z : Reg)
  /-- `imulq %x, %y, %z`, Op = 0x34, format RRR (R106). -/
  | imulqReg (x y z : Reg)
  /-- `idivq %x, %y, %z`, Op = 0x35, format RRR (R110). -/
  | idivqReg (x y z : Reg)
  /-- `addq x, %y, %z`, Op = 0x38, format URR (R101). -/
  | addqImm (x : Imm8) (y z : Reg)
  /-- `subq x, %y, %z`, Op = 0x39, format URR (R103). -/
  | subqImm (x : Imm8) (y z : Reg)
  /-- `mulq x, %y, %z`, Op = 0x3A, format URR (R105). -/
  | mulqImm (x : Imm8) (y z : Reg)
  /-- `divq x, %y, %z`, Op = 0x3B, format URR (R109). -/
  | divqImm (x : Imm8) (y z : Reg)
  /-- `imulq x, %y, %z`, Op = 0x3C, format SRR (R107). -/
  | imulqImm (x : Imm8) (y z : Reg)
  /-- `idivq x, %y, %z`, Op = 0x3D, format SRR (R111). -/
  | idivqImm (x : Imm8) (y z : Reg)
  /-- `jmp %x, %y`, Op = 0x40, format RR (R161). -/
  | jmpReg (x y : Reg)
  /-- `jmp xyz`, Op = 0x41, format S24 (R162). -/
  | jmpRel (xyz : Imm24)
  /-- `je xyz`, Op = 0x42, format S24 (R164). -/
  | je (xyz : Imm24)
  /-- `jz xyz`, Op = 0x42, format S24 (R164, alias of je). -/
  | jz (xyz : Imm24)
  /-- `jne xyz`, Op = 0x43, format S24 (R165). -/
  | jne (xyz : Imm24)
  /-- `jnz xyz`, Op = 0x43, format S24 (R165, alias of jne). -/
  | jnz (xyz : Imm24)
  /-- `jl xyz`, Op = 0x44, format S24 (R166). -/
  | jl (xyz : Imm24)
  /-- `jnge xyz`, Op = 0x44, format S24 (R166, alias of jl). -/
  | jnge (xyz : Imm24)
  /-- `jge xyz`, Op = 0x45, format S24 (R167). -/
  | jge (xyz : Imm24)
  /-- `jnl xyz`, Op = 0x45, format S24 (R167, alias of jge). -/
  | jnl (xyz : Imm24)
  /-- `jle xyz`, Op = 0x46, format S24 (R168). -/
  | jle (xyz : Imm24)
  /-- `jng xyz`, Op = 0x46, format S24 (R168, alias of jle). -/
  | jng (xyz : Imm24)
  /-- `jg xyz`, Op = 0x47, format S24 (R169). -/
  | jg (xyz : Imm24)
  /-- `jnle xyz`, Op = 0x47, format S24 (R169, alias of jg). -/
  | jnle (xyz : Imm24)
  /-- `jb xyz`, Op = 0x48, format S24 (R170). -/
  | jb (xyz : Imm24)
  /-- `jnae xyz`, Op = 0x48, format S24 (R170, alias of jb). -/
  | jnae (xyz : Imm24)
  /-- `jae xyz`, Op = 0x49, format S24 (R171). -/
  | jae (xyz : Imm24)
  /-- `jnb xyz`, Op = 0x49, format S24 (R171, alias of jae). -/
  | jnb (xyz : Imm24)
  /-- `jbe xyz`, Op = 0x4A, format S24 (R172). -/
  | jbe (xyz : Imm24)
  /-- `jna xyz`, Op = 0x4A, format S24 (R172, alias of jbe). -/
  | jna (xyz : Imm24)
  /-- `ja xyz`, Op = 0x4B, format S24 (R173). -/
  | ja (xyz : Imm24)
  /-- `jnbe xyz`, Op = 0x4B, format S24 (R173, alias of ja). -/
  | jnbe (xyz : Imm24)
  /-- `orq %x, %y, %z`, Op = 0x50, format RRR (R121). -/
  | orq (x y z : Reg)
  /-- `andq %x, %y, %z`, Op = 0x51, format RRR (R120). -/
  | andq (x y z : Reg)
  /-- `shlq %x, %y, %z`, Op = 0x52, format RRR (R123). -/
  | shlqReg (x y z : Reg)
  /-- `salq %x, %y, %z`, Op = 0x52, format RRR (R123, alias of shlq). -/
  | salqReg (x y z : Reg)
  /-- `shrq %x, %y, %z`, Op = 0x53, format RRR (R125). -/
  | shrqReg (x y z : Reg)
  /-- `sarq %x, %y, %z`, Op = 0x54, format RRR (R127). -/
  | sarqReg (x y z : Reg)
  /-- `ldzwq xy, %z`, Op = 0x56, format U16R (R186). -/
  | ldzwq (xy : Imm16) (z : Reg)
  /-- `ldswq xy, %z`, Op = 0x57, format S16R (R185). -/
  | ldswq (xy : Imm16) (z : Reg)
  /-- `shlq x, %y, %z`, Op = 0x5A, format URR (R124). -/
  | shlqImm (x : Imm8) (y z : Reg)
  /-- `salq x, %y, %z`, Op = 0x5A, format URR (R124, alias of shlq). -/
  | salqImm (x : Imm8) (y z : Reg)
  /-- `shrq x, %y, %z`, Op = 0x5B, format URR (R126). -/
  | shrqImm (x : Imm8) (y z : Reg)
  /-- `sarq x, %y, %z`, Op = 0x5C, format URR (R128). -/
  | sarqImm (x : Imm8) (y z : Reg)
  /-- `shldwq xy, %z`, Op = 0x5D, format U16R (R187). -/
  | shldwq (xy : Imm16) (z : Reg)
  /-- `notq %x, %y`, Op = 0x5E, format RR (R122). -/
  | notq (x y : Reg)
  /-- `getc %x`, Op = 0x60, format R (R142). -/
  | getc (x : Reg)
  /-- `putc %x`, Op = 0x61, format R (R143). -/
  | putcReg (x : Reg)
  /-- `putc x`, Op = 0x69, format U8 (R147). -/
  | putcImm (x : Imm8)
  /-- `movq (%x, %y, 2), %z`, Op = 0x80, format M(RR)R (R233). -/
  | movqLoadScaled2 (x y z : Reg)
  /-- `movzlq (%x, %y, 2), %z`, Op = 0x81, format M(RR)R (R238). -/
  | movzlqScaled2 (x y z : Reg)
  /-- `movzwq (%x, %y, 2), %z`, Op = 0x82, format M(RR)R (R243). -/
  | movzwqScaled2 (x y z : Reg)
  /-- `movzbq (%x, %y, 2), %z`, Op = 0x83, format M(RR)R (R248). -/
  | movzbqScaled2 (x y z : Reg)
  /-- `movslq (%x, %y, 2), %z`, Op = 0x85, format M(RR)R (R253). -/
  | movslqScaled2 (x y z : Reg)
  /-- `movswq (%x, %y, 2), %z`, Op = 0x86, format M(RR)R (R258). -/
  | movswqScaled2 (x y z : Reg)
  /-- `movsbq (%x, %y, 2), %z`, Op = 0x87, format M(RR)R (R263). -/
  | movsbqScaled2 (x y z : Reg)
  /-- `movq %x, (%y, %z, 2)`, Op = 0x90, format RM(RR) (R203). -/
  | movqStoreScaled2 (x y z : Reg)
  /-- `movl %x, (%y, %z, 2)`, Op = 0x91, format RM(RR) (R208). -/
  | movlScaled2 (x y z : Reg)
  /-- `movw %x, (%y, %z, 2)`, Op = 0x92, format RM(RR) (R213). -/
  | movwScaled2 (x y z : Reg)
  /-- `movb %x, (%y, %z, 2)`, Op = 0x93, format RM(RR) (R218). -/
  | movbScaled2 (x y z : Reg)
  /-- `movq (%x, %y, 4), %z`, Op = 0xA0, format M(RR)R (R234). -/
  | movqLoadScaled4 (x y z : Reg)
  /-- `movzlq (%x, %y, 4), %z`, Op = 0xA1, format M(RR)R (R239). -/
  | movzlqScaled4 (x y z : Reg)
  /-- `movzwq (%x, %y, 4), %z`, Op = 0xA2, format M(RR)R (R244). -/
  | movzwqScaled4 (x y z : Reg)
  /-- `movzbq (%x, %y, 4), %z`, Op = 0xA3, format M(RR)R (R249). -/
  | movzbqScaled4 (x y z : Reg)
  /-- `movslq (%x, %y, 4), %z`, Op = 0xA5, format M(RR)R (R254). -/
  | movslqScaled4 (x y z : Reg)
  /-- `movswq (%x, %y, 4), %z`, Op = 0xA6, format M(RR)R (R259). -/
  | movswqScaled4 (x y z : Reg)
  /-- `movsbq (%x, %y, 4), %z`, Op = 0xA7, format M(RR)R (R264). -/
  | movsbqScaled4 (x y z : Reg)
  /-- `movq %x, (%y, %z, 4)`, Op = 0xB0, format RM(RR) (R204). -/
  | movqStoreScaled4 (x y z : Reg)
  /-- `movl %x, (%y, %z, 4)`, Op = 0xB1, format RM(RR) (R209). -/
  | movlScaled4 (x y z : Reg)
  /-- `movw %x, (%y, %z, 4)`, Op = 0xB2, format RM(RR) (R214). -/
  | movwScaled4 (x y z : Reg)
  /-- `movb %x, (%y, %z, 4)`, Op = 0xB3, format RM(RR) (R219). -/
  | movbScaled4 (x y z : Reg)
  /-- `movq (%x, %y, 8), %z`, Op = 0xC0, format M(RR)R (R235). -/
  | movqLoadScaled8 (x y z : Reg)
  /-- `movzlq (%x, %y, 8), %z`, Op = 0xC1, format M(RR)R (R240). -/
  | movzlqScaled8 (x y z : Reg)
  /-- `movzwq (%x, %y, 8), %z`, Op = 0xC2, format M(RR)R (R245). -/
  | movzwqScaled8 (x y z : Reg)
  /-- `movzbq (%x, %y, 8), %z`, Op = 0xC3, format M(RR)R (R250). -/
  | movzbqScaled8 (x y z : Reg)
  /-- `movslq (%x, %y, 8), %z`, Op = 0xC5, format M(RR)R (R255). -/
  | movslqScaled8 (x y z : Reg)
  /-- `movswq (%x, %y, 8), %z`, Op = 0xC6, format M(RR)R (R260). -/
  | movswqScaled8 (x y z : Reg)
  /-- `movsbq (%x, %y, 8), %z`, Op = 0xC7, format M(RR)R (R265). -/
  | movsbqScaled8 (x y z : Reg)
  /-- `movq %x, (%y, %z, 8)`, Op = 0xD0, format RM(RR) (R205). -/
  | movqStoreScaled8 (x y z : Reg)
  /-- `movl %x, (%y, %z, 8)`, Op = 0xD1, format RM(RR) (R210). -/
  | movlScaled8 (x y z : Reg)
  /-- `movw %x, (%y, %z, 8)`, Op = 0xD2, format RM(RR) (R215). -/
  | movwScaled8 (x y z : Reg)
  /-- `movb %x, (%y, %z, 8)`, Op = 0xD3, format RM(RR) (R220). -/
  | movbScaled8 (x y z : Reg)
  /-- `nop`, Op = 0xFF, format empty (R140). -/
  | nop
deriving DecidableEq, Repr, Inhabited

end Sys2Proof
end

