-- ==== Sys2Proof/Machine/Dispatch.lean ====
section
/-! DEFINITION. What every instruction does: one arm per constructor of Instr, each a direct call of the
instruction's own meaning (spec/30_encoding.md R78). -/

namespace Sys2Proof.Machine

def exec (i : Instr) (s : State) : Host.Outcome State Fault Refusal :=
  match i with
  | .haltReg x => Sys2Proof.Machine.execHaltReg x s
  | .trap x y z => Sys2Proof.Machine.execTrap x y z s
  | .haltImm x => Sys2Proof.Machine.execHaltImm x s
  | .movqLoad x y z => Sys2Proof.Machine.execMovqLoad x y z s
  | .movzlq x y z => Sys2Proof.Machine.execMovzlq x y z s
  | .movzwq x y z => Sys2Proof.Machine.execMovzwq x y z s
  | .movzbq x y z => Sys2Proof.Machine.execMovzbq x y z s
  | .movslq x y z => Sys2Proof.Machine.execMovslq x y z s
  | .movswq x y z => Sys2Proof.Machine.execMovswq x y z s
  | .movsbq x y z => Sys2Proof.Machine.execMovsbq x y z s
  | .movqLoadDisp x y z => Sys2Proof.Machine.execMovqLoadDisp x y z s
  | .movzlqDisp x y z => Sys2Proof.Machine.execMovzlqDisp x y z s
  | .movzwqDisp x y z => Sys2Proof.Machine.execMovzwqDisp x y z s
  | .movzbqDisp x y z => Sys2Proof.Machine.execMovzbqDisp x y z s
  | .movslqDisp x y z => Sys2Proof.Machine.execMovslqDisp x y z s
  | .movswqDisp x y z => Sys2Proof.Machine.execMovswqDisp x y z s
  | .movsbqDisp x y z => Sys2Proof.Machine.execMovsbqDisp x y z s
  | .movqStore x y z => Sys2Proof.Machine.execMovqStore x y z s
  | .movl x y z => Sys2Proof.Machine.execMovl x y z s
  | .movw x y z => Sys2Proof.Machine.execMovw x y z s
  | .movb x y z => Sys2Proof.Machine.execMovb x y z s
  | .movqStoreDisp x y z => Sys2Proof.Machine.execMovqStoreDisp x y z s
  | .movlDisp x y z => Sys2Proof.Machine.execMovlDisp x y z s
  | .movwDisp x y z => Sys2Proof.Machine.execMovwDisp x y z s
  | .movbDisp x y z => Sys2Proof.Machine.execMovbDisp x y z s
  | .addqReg x y z => Sys2Proof.Machine.execAddqReg x y z s
  | .subqReg x y z => Sys2Proof.Machine.execSubqReg x y z s
  | .mulqReg x y z => Sys2Proof.Machine.execMulqReg x y z s
  | .divqReg x y z => Sys2Proof.Machine.execDivqReg x y z s
  | .imulqReg x y z => Sys2Proof.Machine.execImulqReg x y z s
  | .idivqReg x y z => Sys2Proof.Machine.execIdivqReg x y z s
  | .addqImm x y z => Sys2Proof.Machine.execAddqImm x y z s
  | .subqImm x y z => Sys2Proof.Machine.execSubqImm x y z s
  | .mulqImm x y z => Sys2Proof.Machine.execMulqImm x y z s
  | .divqImm x y z => Sys2Proof.Machine.execDivqImm x y z s
  | .imulqImm x y z => Sys2Proof.Machine.execImulqImm x y z s
  | .idivqImm x y z => Sys2Proof.Machine.execIdivqImm x y z s
  | .jmpReg x y => Sys2Proof.Machine.execJmpReg x y s
  | .jmpRel xyz => Sys2Proof.Machine.execJmpRel xyz s
  | .je xyz => Sys2Proof.Machine.execJe xyz s
  | .jz xyz => Sys2Proof.Machine.execJz xyz s
  | .jne xyz => Sys2Proof.Machine.execJne xyz s
  | .jnz xyz => Sys2Proof.Machine.execJnz xyz s
  | .jl xyz => Sys2Proof.Machine.execJl xyz s
  | .jnge xyz => Sys2Proof.Machine.execJnge xyz s
  | .jge xyz => Sys2Proof.Machine.execJge xyz s
  | .jnl xyz => Sys2Proof.Machine.execJnl xyz s
  | .jle xyz => Sys2Proof.Machine.execJle xyz s
  | .jng xyz => Sys2Proof.Machine.execJng xyz s
  | .jg xyz => Sys2Proof.Machine.execJg xyz s
  | .jnle xyz => Sys2Proof.Machine.execJnle xyz s
  | .jb xyz => Sys2Proof.Machine.execJb xyz s
  | .jnae xyz => Sys2Proof.Machine.execJnae xyz s
  | .jae xyz => Sys2Proof.Machine.execJae xyz s
  | .jnb xyz => Sys2Proof.Machine.execJnb xyz s
  | .jbe xyz => Sys2Proof.Machine.execJbe xyz s
  | .jna xyz => Sys2Proof.Machine.execJna xyz s
  | .ja xyz => Sys2Proof.Machine.execJa xyz s
  | .jnbe xyz => Sys2Proof.Machine.execJnbe xyz s
  | .orq x y z => Sys2Proof.Machine.execOrq x y z s
  | .andq x y z => Sys2Proof.Machine.execAndq x y z s
  | .shlqReg x y z => Sys2Proof.Machine.execShlqReg x y z s
  | .salqReg x y z => Sys2Proof.Machine.execSalqReg x y z s
  | .shrqReg x y z => Sys2Proof.Machine.execShrqReg x y z s
  | .sarqReg x y z => Sys2Proof.Machine.execSarqReg x y z s
  | .ldzwq xy z => Sys2Proof.Machine.execLdzwq xy z s
  | .ldswq xy z => Sys2Proof.Machine.execLdswq xy z s
  | .shlqImm x y z => Sys2Proof.Machine.execShlqImm x y z s
  | .salqImm x y z => Sys2Proof.Machine.execSalqImm x y z s
  | .shrqImm x y z => Sys2Proof.Machine.execShrqImm x y z s
  | .sarqImm x y z => Sys2Proof.Machine.execSarqImm x y z s
  | .shldwq xy z => Sys2Proof.Machine.execShldwq xy z s
  | .notq x y => Sys2Proof.Machine.execNotq x y s
  | .getc x => Sys2Proof.Machine.execGetc x s
  | .putcReg x => Sys2Proof.Machine.execPutcReg x s
  | .putcImm x => Sys2Proof.Machine.execPutcImm x s
  | .movqLoadScaled2 x y z => Sys2Proof.Machine.execMovqLoadScaled2 x y z s
  | .movzlqScaled2 x y z => Sys2Proof.Machine.execMovzlqScaled2 x y z s
  | .movzwqScaled2 x y z => Sys2Proof.Machine.execMovzwqScaled2 x y z s
  | .movzbqScaled2 x y z => Sys2Proof.Machine.execMovzbqScaled2 x y z s
  | .movslqScaled2 x y z => Sys2Proof.Machine.execMovslqScaled2 x y z s
  | .movswqScaled2 x y z => Sys2Proof.Machine.execMovswqScaled2 x y z s
  | .movsbqScaled2 x y z => Sys2Proof.Machine.execMovsbqScaled2 x y z s
  | .movqStoreScaled2 x y z => Sys2Proof.Machine.execMovqStoreScaled2 x y z s
  | .movlScaled2 x y z => Sys2Proof.Machine.execMovlScaled2 x y z s
  | .movwScaled2 x y z => Sys2Proof.Machine.execMovwScaled2 x y z s
  | .movbScaled2 x y z => Sys2Proof.Machine.execMovbScaled2 x y z s
  | .movqLoadScaled4 x y z => Sys2Proof.Machine.execMovqLoadScaled4 x y z s
  | .movzlqScaled4 x y z => Sys2Proof.Machine.execMovzlqScaled4 x y z s
  | .movzwqScaled4 x y z => Sys2Proof.Machine.execMovzwqScaled4 x y z s
  | .movzbqScaled4 x y z => Sys2Proof.Machine.execMovzbqScaled4 x y z s
  | .movslqScaled4 x y z => Sys2Proof.Machine.execMovslqScaled4 x y z s
  | .movswqScaled4 x y z => Sys2Proof.Machine.execMovswqScaled4 x y z s
  | .movsbqScaled4 x y z => Sys2Proof.Machine.execMovsbqScaled4 x y z s
  | .movqStoreScaled4 x y z => Sys2Proof.Machine.execMovqStoreScaled4 x y z s
  | .movlScaled4 x y z => Sys2Proof.Machine.execMovlScaled4 x y z s
  | .movwScaled4 x y z => Sys2Proof.Machine.execMovwScaled4 x y z s
  | .movbScaled4 x y z => Sys2Proof.Machine.execMovbScaled4 x y z s
  | .movqLoadScaled8 x y z => Sys2Proof.Machine.execMovqLoadScaled8 x y z s
  | .movzlqScaled8 x y z => Sys2Proof.Machine.execMovzlqScaled8 x y z s
  | .movzwqScaled8 x y z => Sys2Proof.Machine.execMovzwqScaled8 x y z s
  | .movzbqScaled8 x y z => Sys2Proof.Machine.execMovzbqScaled8 x y z s
  | .movslqScaled8 x y z => Sys2Proof.Machine.execMovslqScaled8 x y z s
  | .movswqScaled8 x y z => Sys2Proof.Machine.execMovswqScaled8 x y z s
  | .movsbqScaled8 x y z => Sys2Proof.Machine.execMovsbqScaled8 x y z s
  | .movqStoreScaled8 x y z => Sys2Proof.Machine.execMovqStoreScaled8 x y z s
  | .movlScaled8 x y z => Sys2Proof.Machine.execMovlScaled8 x y z s
  | .movwScaled8 x y z => Sys2Proof.Machine.execMovwScaled8 x y z s
  | .movbScaled8 x y z => Sys2Proof.Machine.execMovbScaled8 x y z s
  | .nop => Sys2Proof.Machine.execNop s

end Sys2Proof.Machine
end

