-- ==== Sys2Proof/WellFormed.lean ====
section
/-! DEFINITION. Which instruction terms the decoder can answer. Every operand field has exactly the width
its format encodes (spec/30_encoding.md R62 to R74), so no field can be out of range by construction and
the one check left is the spelling: an alias mnemonic (R94) is another name of the first mnemonic's words,
and the decoder answers the first mnemonic. -/

namespace Sys2Proof

/-- The instruction under its first mnemonic: an alias of R94 becomes the row it names, every other
instruction is itself. -/
def Instr.canon : Instr → Instr
  | .haltReg x => .haltReg x
  | .trap x y z => .trap x y z
  | .haltImm x => .haltImm x
  | .movqLoad x y z => .movqLoad x y z
  | .movzlq x y z => .movzlq x y z
  | .movzwq x y z => .movzwq x y z
  | .movzbq x y z => .movzbq x y z
  | .movslq x y z => .movslq x y z
  | .movswq x y z => .movswq x y z
  | .movsbq x y z => .movsbq x y z
  | .movqLoadDisp x y z => .movqLoadDisp x y z
  | .movzlqDisp x y z => .movzlqDisp x y z
  | .movzwqDisp x y z => .movzwqDisp x y z
  | .movzbqDisp x y z => .movzbqDisp x y z
  | .movslqDisp x y z => .movslqDisp x y z
  | .movswqDisp x y z => .movswqDisp x y z
  | .movsbqDisp x y z => .movsbqDisp x y z
  | .movqStore x y z => .movqStore x y z
  | .movl x y z => .movl x y z
  | .movw x y z => .movw x y z
  | .movb x y z => .movb x y z
  | .movqStoreDisp x y z => .movqStoreDisp x y z
  | .movlDisp x y z => .movlDisp x y z
  | .movwDisp x y z => .movwDisp x y z
  | .movbDisp x y z => .movbDisp x y z
  | .addqReg x y z => .addqReg x y z
  | .subqReg x y z => .subqReg x y z
  | .mulqReg x y z => .mulqReg x y z
  | .divqReg x y z => .divqReg x y z
  | .imulqReg x y z => .imulqReg x y z
  | .idivqReg x y z => .idivqReg x y z
  | .addqImm x y z => .addqImm x y z
  | .subqImm x y z => .subqImm x y z
  | .mulqImm x y z => .mulqImm x y z
  | .divqImm x y z => .divqImm x y z
  | .imulqImm x y z => .imulqImm x y z
  | .idivqImm x y z => .idivqImm x y z
  | .jmpReg x y => .jmpReg x y
  | .jmpRel xyz => .jmpRel xyz
  | .je xyz => .je xyz
  | .jz xyz => .je xyz
  | .jne xyz => .jne xyz
  | .jnz xyz => .jne xyz
  | .jl xyz => .jl xyz
  | .jnge xyz => .jl xyz
  | .jge xyz => .jge xyz
  | .jnl xyz => .jge xyz
  | .jle xyz => .jle xyz
  | .jng xyz => .jle xyz
  | .jg xyz => .jg xyz
  | .jnle xyz => .jg xyz
  | .jb xyz => .jb xyz
  | .jnae xyz => .jb xyz
  | .jae xyz => .jae xyz
  | .jnb xyz => .jae xyz
  | .jbe xyz => .jbe xyz
  | .jna xyz => .jbe xyz
  | .ja xyz => .ja xyz
  | .jnbe xyz => .ja xyz
  | .orq x y z => .orq x y z
  | .andq x y z => .andq x y z
  | .shlqReg x y z => .shlqReg x y z
  | .salqReg x y z => .shlqReg x y z
  | .shrqReg x y z => .shrqReg x y z
  | .sarqReg x y z => .sarqReg x y z
  | .ldzwq xy z => .ldzwq xy z
  | .ldswq xy z => .ldswq xy z
  | .shlqImm x y z => .shlqImm x y z
  | .salqImm x y z => .shlqImm x y z
  | .shrqImm x y z => .shrqImm x y z
  | .sarqImm x y z => .sarqImm x y z
  | .shldwq xy z => .shldwq xy z
  | .notq x y => .notq x y
  | .getc x => .getc x
  | .putcReg x => .putcReg x
  | .putcImm x => .putcImm x
  | .movqLoadScaled2 x y z => .movqLoadScaled2 x y z
  | .movzlqScaled2 x y z => .movzlqScaled2 x y z
  | .movzwqScaled2 x y z => .movzwqScaled2 x y z
  | .movzbqScaled2 x y z => .movzbqScaled2 x y z
  | .movslqScaled2 x y z => .movslqScaled2 x y z
  | .movswqScaled2 x y z => .movswqScaled2 x y z
  | .movsbqScaled2 x y z => .movsbqScaled2 x y z
  | .movqStoreScaled2 x y z => .movqStoreScaled2 x y z
  | .movlScaled2 x y z => .movlScaled2 x y z
  | .movwScaled2 x y z => .movwScaled2 x y z
  | .movbScaled2 x y z => .movbScaled2 x y z
  | .movqLoadScaled4 x y z => .movqLoadScaled4 x y z
  | .movzlqScaled4 x y z => .movzlqScaled4 x y z
  | .movzwqScaled4 x y z => .movzwqScaled4 x y z
  | .movzbqScaled4 x y z => .movzbqScaled4 x y z
  | .movslqScaled4 x y z => .movslqScaled4 x y z
  | .movswqScaled4 x y z => .movswqScaled4 x y z
  | .movsbqScaled4 x y z => .movsbqScaled4 x y z
  | .movqStoreScaled4 x y z => .movqStoreScaled4 x y z
  | .movlScaled4 x y z => .movlScaled4 x y z
  | .movwScaled4 x y z => .movwScaled4 x y z
  | .movbScaled4 x y z => .movbScaled4 x y z
  | .movqLoadScaled8 x y z => .movqLoadScaled8 x y z
  | .movzlqScaled8 x y z => .movzlqScaled8 x y z
  | .movzwqScaled8 x y z => .movzwqScaled8 x y z
  | .movzbqScaled8 x y z => .movzbqScaled8 x y z
  | .movslqScaled8 x y z => .movslqScaled8 x y z
  | .movswqScaled8 x y z => .movswqScaled8 x y z
  | .movsbqScaled8 x y z => .movsbqScaled8 x y z
  | .movqStoreScaled8 x y z => .movqStoreScaled8 x y z
  | .movlScaled8 x y z => .movlScaled8 x y z
  | .movwScaled8 x y z => .movwScaled8 x y z
  | .movbScaled8 x y z => .movbScaled8 x y z
  | .nop => .nop

/-- The spelling check: false exactly for the twelve alias mnemonics of R94. -/
def Instr.wellFormed : Instr → Bool
  | .haltReg _ => true
  | .trap _ _ _ => true
  | .haltImm _ => true
  | .movqLoad _ _ _ => true
  | .movzlq _ _ _ => true
  | .movzwq _ _ _ => true
  | .movzbq _ _ _ => true
  | .movslq _ _ _ => true
  | .movswq _ _ _ => true
  | .movsbq _ _ _ => true
  | .movqLoadDisp _ _ _ => true
  | .movzlqDisp _ _ _ => true
  | .movzwqDisp _ _ _ => true
  | .movzbqDisp _ _ _ => true
  | .movslqDisp _ _ _ => true
  | .movswqDisp _ _ _ => true
  | .movsbqDisp _ _ _ => true
  | .movqStore _ _ _ => true
  | .movl _ _ _ => true
  | .movw _ _ _ => true
  | .movb _ _ _ => true
  | .movqStoreDisp _ _ _ => true
  | .movlDisp _ _ _ => true
  | .movwDisp _ _ _ => true
  | .movbDisp _ _ _ => true
  | .addqReg _ _ _ => true
  | .subqReg _ _ _ => true
  | .mulqReg _ _ _ => true
  | .divqReg _ _ _ => true
  | .imulqReg _ _ _ => true
  | .idivqReg _ _ _ => true
  | .addqImm _ _ _ => true
  | .subqImm _ _ _ => true
  | .mulqImm _ _ _ => true
  | .divqImm _ _ _ => true
  | .imulqImm _ _ _ => true
  | .idivqImm _ _ _ => true
  | .jmpReg _ _ => true
  | .jmpRel _ => true
  | .je _ => true
  | .jz _ => false
  | .jne _ => true
  | .jnz _ => false
  | .jl _ => true
  | .jnge _ => false
  | .jge _ => true
  | .jnl _ => false
  | .jle _ => true
  | .jng _ => false
  | .jg _ => true
  | .jnle _ => false
  | .jb _ => true
  | .jnae _ => false
  | .jae _ => true
  | .jnb _ => false
  | .jbe _ => true
  | .jna _ => false
  | .ja _ => true
  | .jnbe _ => false
  | .orq _ _ _ => true
  | .andq _ _ _ => true
  | .shlqReg _ _ _ => true
  | .salqReg _ _ _ => false
  | .shrqReg _ _ _ => true
  | .sarqReg _ _ _ => true
  | .ldzwq _ _ => true
  | .ldswq _ _ => true
  | .shlqImm _ _ _ => true
  | .salqImm _ _ _ => false
  | .shrqImm _ _ _ => true
  | .sarqImm _ _ _ => true
  | .shldwq _ _ => true
  | .notq _ _ => true
  | .getc _ => true
  | .putcReg _ => true
  | .putcImm _ => true
  | .movqLoadScaled2 _ _ _ => true
  | .movzlqScaled2 _ _ _ => true
  | .movzwqScaled2 _ _ _ => true
  | .movzbqScaled2 _ _ _ => true
  | .movslqScaled2 _ _ _ => true
  | .movswqScaled2 _ _ _ => true
  | .movsbqScaled2 _ _ _ => true
  | .movqStoreScaled2 _ _ _ => true
  | .movlScaled2 _ _ _ => true
  | .movwScaled2 _ _ _ => true
  | .movbScaled2 _ _ _ => true
  | .movqLoadScaled4 _ _ _ => true
  | .movzlqScaled4 _ _ _ => true
  | .movzwqScaled4 _ _ _ => true
  | .movzbqScaled4 _ _ _ => true
  | .movslqScaled4 _ _ _ => true
  | .movswqScaled4 _ _ _ => true
  | .movsbqScaled4 _ _ _ => true
  | .movqStoreScaled4 _ _ _ => true
  | .movlScaled4 _ _ _ => true
  | .movwScaled4 _ _ _ => true
  | .movbScaled4 _ _ _ => true
  | .movqLoadScaled8 _ _ _ => true
  | .movzlqScaled8 _ _ _ => true
  | .movzwqScaled8 _ _ _ => true
  | .movzbqScaled8 _ _ _ => true
  | .movslqScaled8 _ _ _ => true
  | .movswqScaled8 _ _ _ => true
  | .movsbqScaled8 _ _ _ => true
  | .movqStoreScaled8 _ _ _ => true
  | .movlScaled8 _ _ _ => true
  | .movwScaled8 _ _ _ => true
  | .movbScaled8 _ _ _ => true
  | .nop => true

end Sys2Proof
end

