-- ==== Sys2Proof/Decode.lean ====
section
/-! DEFINITION. Decoding and encoding (spec/30_encoding.md R60 to R82). The byte Op alone selects the
instruction (R61); the opcode map is a list of rows, one per defined value of Op, each with the way its
format reads X, Y and Z. Decoding is total on any bytes: it answers an instruction or a named refusal
(R79, R81). The encoder is written from the same map and puts 0 in bytes a format does not use (R82). -/

namespace Sys2Proof

/-- Why bytes are not an instruction. `illegalOpcode`: the Op byte of this 32-bit word is one of the 158
values R81 lists; `truncated`: fewer than the four bytes of an instruction word (R60), which a fetch never
gives. -/
inductive DecodeError
  | illegalOpcode (w : BitVec 32)
  | truncated
deriving DecidableEq, Repr, Inhabited

/-- One row of the opcode map: the value of Op, and the instruction that its format reads from the bytes
X, Y and Z (R78, R79). -/
structure OpcodeRow where
  op : Byte
  build : Byte → Byte → Byte → Instr

/-- The opcode rows of nop, halt, trap, getc, putc (R140 to R148). -/
def systemRows : List OpcodeRow :=
  [⟨0x01, fun x _ _ => .haltReg x⟩,
   ⟨0x02, fun x y z => .trap x y z⟩,
   ⟨0x09, fun x _ _ => .haltImm x⟩,
   ⟨0x60, fun x _ _ => .getc x⟩,
   ⟨0x61, fun x _ _ => .putcReg x⟩,
   ⟨0x69, fun x _ _ => .putcImm x⟩,
   ⟨0xFF, fun _ _ _ => .nop⟩]

/-- The opcode rows of addq, subq, mulq, divq, imulq, idivq (R100 to R111). -/
def arithRows : List OpcodeRow :=
  [⟨0x30, fun x y z => .addqReg x y z⟩,
   ⟨0x31, fun x y z => .subqReg x y z⟩,
   ⟨0x32, fun x y z => .mulqReg x y z⟩,
   ⟨0x33, fun x y z => .divqReg x y z⟩,
   ⟨0x34, fun x y z => .imulqReg x y z⟩,
   ⟨0x35, fun x y z => .idivqReg x y z⟩,
   ⟨0x38, fun x y z => .addqImm x y z⟩,
   ⟨0x39, fun x y z => .subqImm x y z⟩,
   ⟨0x3A, fun x y z => .mulqImm x y z⟩,
   ⟨0x3B, fun x y z => .divqImm x y z⟩,
   ⟨0x3C, fun x y z => .imulqImm x y z⟩,
   ⟨0x3D, fun x y z => .idivqImm x y z⟩]

/-- The opcode rows of orq, andq, notq and the shifts (R120 to R128). -/
def logicRows : List OpcodeRow :=
  [⟨0x50, fun x y z => .orq x y z⟩,
   ⟨0x51, fun x y z => .andq x y z⟩,
   ⟨0x52, fun x y z => .shlqReg x y z⟩,
   ⟨0x53, fun x y z => .shrqReg x y z⟩,
   ⟨0x54, fun x y z => .sarqReg x y z⟩,
   ⟨0x5A, fun x y z => .shlqImm x y z⟩,
   ⟨0x5B, fun x y z => .shrqImm x y z⟩,
   ⟨0x5C, fun x y z => .sarqImm x y z⟩,
   ⟨0x5E, fun x y _ => .notq x y⟩]

/-- The opcode rows of ldzwq, ldswq, shldwq (R185 to R187). -/
def loadImmediateRows : List OpcodeRow :=
  [⟨0x56, fun x y z => .ldzwq (x ++ y) z⟩,
   ⟨0x57, fun x y z => .ldswq (x ++ y) z⟩,
   ⟨0x5D, fun x y z => .shldwq (x ++ y) z⟩]

/-- The opcode rows of jmp and the ten conditional jumps (R161 to R173). -/
def jumpRows : List OpcodeRow :=
  [⟨0x40, fun x y _ => .jmpReg x y⟩,
   ⟨0x41, fun x y z => .jmpRel (x ++ y ++ z)⟩,
   ⟨0x42, fun x y z => .je (x ++ y ++ z)⟩,
   ⟨0x43, fun x y z => .jne (x ++ y ++ z)⟩,
   ⟨0x44, fun x y z => .jl (x ++ y ++ z)⟩,
   ⟨0x45, fun x y z => .jge (x ++ y ++ z)⟩,
   ⟨0x46, fun x y z => .jle (x ++ y ++ z)⟩,
   ⟨0x47, fun x y z => .jg (x ++ y ++ z)⟩,
   ⟨0x48, fun x y z => .jb (x ++ y ++ z)⟩,
   ⟨0x49, fun x y z => .jae (x ++ y ++ z)⟩,
   ⟨0x4A, fun x y z => .jbe (x ++ y ++ z)⟩,
   ⟨0x4B, fun x y z => .ja (x ++ y ++ z)⟩]

/-- The opcode rows of the loads without scale (R231 to R262). -/
def loadRows : List OpcodeRow :=
  [⟨0x10, fun x y z => .movqLoad x y z⟩,
   ⟨0x11, fun x y z => .movzlq x y z⟩,
   ⟨0x12, fun x y z => .movzwq x y z⟩,
   ⟨0x13, fun x y z => .movzbq x y z⟩,
   ⟨0x15, fun x y z => .movslq x y z⟩,
   ⟨0x16, fun x y z => .movswq x y z⟩,
   ⟨0x17, fun x y z => .movsbq x y z⟩,
   ⟨0x18, fun x y z => .movqLoadDisp x y z⟩,
   ⟨0x19, fun x y z => .movzlqDisp x y z⟩,
   ⟨0x1A, fun x y z => .movzwqDisp x y z⟩,
   ⟨0x1B, fun x y z => .movzbqDisp x y z⟩,
   ⟨0x1D, fun x y z => .movslqDisp x y z⟩,
   ⟨0x1E, fun x y z => .movswqDisp x y z⟩,
   ⟨0x1F, fun x y z => .movsbqDisp x y z⟩]

/-- The opcode rows of the loads with scale 2, 4 and 8 (R75, R233 to R265). -/
def scaledLoadRows : List OpcodeRow :=
  [⟨0x80, fun x y z => .movqLoadScaled2 x y z⟩,
   ⟨0x81, fun x y z => .movzlqScaled2 x y z⟩,
   ⟨0x82, fun x y z => .movzwqScaled2 x y z⟩,
   ⟨0x83, fun x y z => .movzbqScaled2 x y z⟩,
   ⟨0x85, fun x y z => .movslqScaled2 x y z⟩,
   ⟨0x86, fun x y z => .movswqScaled2 x y z⟩,
   ⟨0x87, fun x y z => .movsbqScaled2 x y z⟩,
   ⟨0xA0, fun x y z => .movqLoadScaled4 x y z⟩,
   ⟨0xA1, fun x y z => .movzlqScaled4 x y z⟩,
   ⟨0xA2, fun x y z => .movzwqScaled4 x y z⟩,
   ⟨0xA3, fun x y z => .movzbqScaled4 x y z⟩,
   ⟨0xA5, fun x y z => .movslqScaled4 x y z⟩,
   ⟨0xA6, fun x y z => .movswqScaled4 x y z⟩,
   ⟨0xA7, fun x y z => .movsbqScaled4 x y z⟩,
   ⟨0xC0, fun x y z => .movqLoadScaled8 x y z⟩,
   ⟨0xC1, fun x y z => .movzlqScaled8 x y z⟩,
   ⟨0xC2, fun x y z => .movzwqScaled8 x y z⟩,
   ⟨0xC3, fun x y z => .movzbqScaled8 x y z⟩,
   ⟨0xC5, fun x y z => .movslqScaled8 x y z⟩,
   ⟨0xC6, fun x y z => .movswqScaled8 x y z⟩,
   ⟨0xC7, fun x y z => .movsbqScaled8 x y z⟩]

/-- The opcode rows of the stores without scale (R201 to R217). -/
def storeRows : List OpcodeRow :=
  [⟨0x20, fun x y z => .movqStore x y z⟩,
   ⟨0x21, fun x y z => .movl x y z⟩,
   ⟨0x22, fun x y z => .movw x y z⟩,
   ⟨0x23, fun x y z => .movb x y z⟩,
   ⟨0x28, fun x y z => .movqStoreDisp x y z⟩,
   ⟨0x29, fun x y z => .movlDisp x y z⟩,
   ⟨0x2A, fun x y z => .movwDisp x y z⟩,
   ⟨0x2B, fun x y z => .movbDisp x y z⟩]

/-- The opcode rows of the stores with scale 2, 4 and 8 (R75, R203 to R220). -/
def scaledStoreRows : List OpcodeRow :=
  [⟨0x90, fun x y z => .movqStoreScaled2 x y z⟩,
   ⟨0x91, fun x y z => .movlScaled2 x y z⟩,
   ⟨0x92, fun x y z => .movwScaled2 x y z⟩,
   ⟨0x93, fun x y z => .movbScaled2 x y z⟩,
   ⟨0xB0, fun x y z => .movqStoreScaled4 x y z⟩,
   ⟨0xB1, fun x y z => .movlScaled4 x y z⟩,
   ⟨0xB2, fun x y z => .movwScaled4 x y z⟩,
   ⟨0xB3, fun x y z => .movbScaled4 x y z⟩,
   ⟨0xD0, fun x y z => .movqStoreScaled8 x y z⟩,
   ⟨0xD1, fun x y z => .movlScaled8 x y z⟩,
   ⟨0xD2, fun x y z => .movwScaled8 x y z⟩,
   ⟨0xD3, fun x y z => .movbScaled8 x y z⟩]

/-- The opcode map of R78: the 98 defined values of Op. -/
def opcodeMap : List OpcodeRow :=
  systemRows ++ arithRows ++ logicRows ++ loadImmediateRows ++ jumpRows ++
    loadRows ++ scaledLoadRows ++ storeRows ++ scaledStoreRows

/-- The instruction of the four bytes `Op X Y Z`, if Op is in the map (R79). -/
def decodeFields (op x y z : Byte) : Option Instr :=
  (opcodeMap.find? (fun row => row.op == op)).map (fun row => row.build x y z)

/-- Decoding at the head of any bytes: the instruction of the first four and the bytes after them, or the
refusal's name (R60, R79, R81). -/
def decode : List Byte → Except DecodeError (Instr × List Byte)
  | op :: x :: y :: z :: rest =>
    match decodeFields op x y z with
    | some i => .ok (i, rest)
    | none => .error (.illegalOpcode (op ++ x ++ y ++ z))
  | _ => .error .truncated

/-- The four bytes of an instruction word in the order they lie in memory, Op first (R60). -/
def wordBytes (w : BitVec 32) : List Byte :=
  [w.extractLsb' 24 8, w.extractLsb' 16 8, w.extractLsb' 8 8, w.extractLsb' 0 8]

/-- `decode(W)` of R79 on a 32-bit word. -/
def decodeWord (w : BitVec 32) : Except DecodeError Instr :=
  (decode (wordBytes w)).map Prod.fst

/-- The instruction the decoder reads from a word numbered as spec/opcode_table.json numbers it: bit 31 of
`w` is the high bit of Op (R84), the word lies big endian in memory (spec/20_memory.md R45), and bits from
`nbits` on are 0. -/
def decodeTableWord (nbits w : Nat) : Option Instr :=
  (decodeWord (BitVec.ofNat 32 (w % 2 ^ nbits))).toOption

/-- The opcode byte of an instruction (R78). -/
def Instr.opcode : Instr → Byte
  | .haltReg _ => 0x01
  | .trap _ _ _ => 0x02
  | .haltImm _ => 0x09
  | .movqLoad _ _ _ => 0x10
  | .movzlq _ _ _ => 0x11
  | .movzwq _ _ _ => 0x12
  | .movzbq _ _ _ => 0x13
  | .movslq _ _ _ => 0x15
  | .movswq _ _ _ => 0x16
  | .movsbq _ _ _ => 0x17
  | .movqLoadDisp _ _ _ => 0x18
  | .movzlqDisp _ _ _ => 0x19
  | .movzwqDisp _ _ _ => 0x1A
  | .movzbqDisp _ _ _ => 0x1B
  | .movslqDisp _ _ _ => 0x1D
  | .movswqDisp _ _ _ => 0x1E
  | .movsbqDisp _ _ _ => 0x1F
  | .movqStore _ _ _ => 0x20
  | .movl _ _ _ => 0x21
  | .movw _ _ _ => 0x22
  | .movb _ _ _ => 0x23
  | .movqStoreDisp _ _ _ => 0x28
  | .movlDisp _ _ _ => 0x29
  | .movwDisp _ _ _ => 0x2A
  | .movbDisp _ _ _ => 0x2B
  | .addqReg _ _ _ => 0x30
  | .subqReg _ _ _ => 0x31
  | .mulqReg _ _ _ => 0x32
  | .divqReg _ _ _ => 0x33
  | .imulqReg _ _ _ => 0x34
  | .idivqReg _ _ _ => 0x35
  | .addqImm _ _ _ => 0x38
  | .subqImm _ _ _ => 0x39
  | .mulqImm _ _ _ => 0x3A
  | .divqImm _ _ _ => 0x3B
  | .imulqImm _ _ _ => 0x3C
  | .idivqImm _ _ _ => 0x3D
  | .jmpReg _ _ => 0x40
  | .jmpRel _ => 0x41
  | .je _ => 0x42
  | .jz _ => 0x42
  | .jne _ => 0x43
  | .jnz _ => 0x43
  | .jl _ => 0x44
  | .jnge _ => 0x44
  | .jge _ => 0x45
  | .jnl _ => 0x45
  | .jle _ => 0x46
  | .jng _ => 0x46
  | .jg _ => 0x47
  | .jnle _ => 0x47
  | .jb _ => 0x48
  | .jnae _ => 0x48
  | .jae _ => 0x49
  | .jnb _ => 0x49
  | .jbe _ => 0x4A
  | .jna _ => 0x4A
  | .ja _ => 0x4B
  | .jnbe _ => 0x4B
  | .orq _ _ _ => 0x50
  | .andq _ _ _ => 0x51
  | .shlqReg _ _ _ => 0x52
  | .salqReg _ _ _ => 0x52
  | .shrqReg _ _ _ => 0x53
  | .sarqReg _ _ _ => 0x54
  | .ldzwq _ _ => 0x56
  | .ldswq _ _ => 0x57
  | .shlqImm _ _ _ => 0x5A
  | .salqImm _ _ _ => 0x5A
  | .shrqImm _ _ _ => 0x5B
  | .sarqImm _ _ _ => 0x5C
  | .shldwq _ _ => 0x5D
  | .notq _ _ => 0x5E
  | .getc _ => 0x60
  | .putcReg _ => 0x61
  | .putcImm _ => 0x69
  | .movqLoadScaled2 _ _ _ => 0x80
  | .movzlqScaled2 _ _ _ => 0x81
  | .movzwqScaled2 _ _ _ => 0x82
  | .movzbqScaled2 _ _ _ => 0x83
  | .movslqScaled2 _ _ _ => 0x85
  | .movswqScaled2 _ _ _ => 0x86
  | .movsbqScaled2 _ _ _ => 0x87
  | .movqStoreScaled2 _ _ _ => 0x90
  | .movlScaled2 _ _ _ => 0x91
  | .movwScaled2 _ _ _ => 0x92
  | .movbScaled2 _ _ _ => 0x93
  | .movqLoadScaled4 _ _ _ => 0xA0
  | .movzlqScaled4 _ _ _ => 0xA1
  | .movzwqScaled4 _ _ _ => 0xA2
  | .movzbqScaled4 _ _ _ => 0xA3
  | .movslqScaled4 _ _ _ => 0xA5
  | .movswqScaled4 _ _ _ => 0xA6
  | .movsbqScaled4 _ _ _ => 0xA7
  | .movqStoreScaled4 _ _ _ => 0xB0
  | .movlScaled4 _ _ _ => 0xB1
  | .movwScaled4 _ _ _ => 0xB2
  | .movbScaled4 _ _ _ => 0xB3
  | .movqLoadScaled8 _ _ _ => 0xC0
  | .movzlqScaled8 _ _ _ => 0xC1
  | .movzwqScaled8 _ _ _ => 0xC2
  | .movzbqScaled8 _ _ _ => 0xC3
  | .movslqScaled8 _ _ _ => 0xC5
  | .movswqScaled8 _ _ _ => 0xC6
  | .movsbqScaled8 _ _ _ => 0xC7
  | .movqStoreScaled8 _ _ _ => 0xD0
  | .movlScaled8 _ _ _ => 0xD1
  | .movwScaled8 _ _ _ => 0xD2
  | .movbScaled8 _ _ _ => 0xD3
  | .nop => 0xFF

/-- The three operand bytes X, Y and Z of an instruction, 0 where its format uses none (R62 to R74, R82). -/
def Instr.operandBytes : Instr → Byte × Byte × Byte
  | .haltReg x => (x, 0, 0)
  | .trap x y z => (x, y, z)
  | .haltImm x => (x, 0, 0)
  | .movqLoad x y z => (x, y, z)
  | .movzlq x y z => (x, y, z)
  | .movzwq x y z => (x, y, z)
  | .movzbq x y z => (x, y, z)
  | .movslq x y z => (x, y, z)
  | .movswq x y z => (x, y, z)
  | .movsbq x y z => (x, y, z)
  | .movqLoadDisp x y z => (x, y, z)
  | .movzlqDisp x y z => (x, y, z)
  | .movzwqDisp x y z => (x, y, z)
  | .movzbqDisp x y z => (x, y, z)
  | .movslqDisp x y z => (x, y, z)
  | .movswqDisp x y z => (x, y, z)
  | .movsbqDisp x y z => (x, y, z)
  | .movqStore x y z => (x, y, z)
  | .movl x y z => (x, y, z)
  | .movw x y z => (x, y, z)
  | .movb x y z => (x, y, z)
  | .movqStoreDisp x y z => (x, y, z)
  | .movlDisp x y z => (x, y, z)
  | .movwDisp x y z => (x, y, z)
  | .movbDisp x y z => (x, y, z)
  | .addqReg x y z => (x, y, z)
  | .subqReg x y z => (x, y, z)
  | .mulqReg x y z => (x, y, z)
  | .divqReg x y z => (x, y, z)
  | .imulqReg x y z => (x, y, z)
  | .idivqReg x y z => (x, y, z)
  | .addqImm x y z => (x, y, z)
  | .subqImm x y z => (x, y, z)
  | .mulqImm x y z => (x, y, z)
  | .divqImm x y z => (x, y, z)
  | .imulqImm x y z => (x, y, z)
  | .idivqImm x y z => (x, y, z)
  | .jmpReg x y => (x, y, 0)
  | .jmpRel xyz => (xyz.extractLsb' 16 8, xyz.extractLsb' 8 8, xyz.extractLsb' 0 8)
  | .je xyz => (xyz.extractLsb' 16 8, xyz.extractLsb' 8 8, xyz.extractLsb' 0 8)
  | .jz xyz => (xyz.extractLsb' 16 8, xyz.extractLsb' 8 8, xyz.extractLsb' 0 8)
  | .jne xyz => (xyz.extractLsb' 16 8, xyz.extractLsb' 8 8, xyz.extractLsb' 0 8)
  | .jnz xyz => (xyz.extractLsb' 16 8, xyz.extractLsb' 8 8, xyz.extractLsb' 0 8)
  | .jl xyz => (xyz.extractLsb' 16 8, xyz.extractLsb' 8 8, xyz.extractLsb' 0 8)
  | .jnge xyz => (xyz.extractLsb' 16 8, xyz.extractLsb' 8 8, xyz.extractLsb' 0 8)
  | .jge xyz => (xyz.extractLsb' 16 8, xyz.extractLsb' 8 8, xyz.extractLsb' 0 8)
  | .jnl xyz => (xyz.extractLsb' 16 8, xyz.extractLsb' 8 8, xyz.extractLsb' 0 8)
  | .jle xyz => (xyz.extractLsb' 16 8, xyz.extractLsb' 8 8, xyz.extractLsb' 0 8)
  | .jng xyz => (xyz.extractLsb' 16 8, xyz.extractLsb' 8 8, xyz.extractLsb' 0 8)
  | .jg xyz => (xyz.extractLsb' 16 8, xyz.extractLsb' 8 8, xyz.extractLsb' 0 8)
  | .jnle xyz => (xyz.extractLsb' 16 8, xyz.extractLsb' 8 8, xyz.extractLsb' 0 8)
  | .jb xyz => (xyz.extractLsb' 16 8, xyz.extractLsb' 8 8, xyz.extractLsb' 0 8)
  | .jnae xyz => (xyz.extractLsb' 16 8, xyz.extractLsb' 8 8, xyz.extractLsb' 0 8)
  | .jae xyz => (xyz.extractLsb' 16 8, xyz.extractLsb' 8 8, xyz.extractLsb' 0 8)
  | .jnb xyz => (xyz.extractLsb' 16 8, xyz.extractLsb' 8 8, xyz.extractLsb' 0 8)
  | .jbe xyz => (xyz.extractLsb' 16 8, xyz.extractLsb' 8 8, xyz.extractLsb' 0 8)
  | .jna xyz => (xyz.extractLsb' 16 8, xyz.extractLsb' 8 8, xyz.extractLsb' 0 8)
  | .ja xyz => (xyz.extractLsb' 16 8, xyz.extractLsb' 8 8, xyz.extractLsb' 0 8)
  | .jnbe xyz => (xyz.extractLsb' 16 8, xyz.extractLsb' 8 8, xyz.extractLsb' 0 8)
  | .orq x y z => (x, y, z)
  | .andq x y z => (x, y, z)
  | .shlqReg x y z => (x, y, z)
  | .salqReg x y z => (x, y, z)
  | .shrqReg x y z => (x, y, z)
  | .sarqReg x y z => (x, y, z)
  | .ldzwq xy z => (xy.extractLsb' 8 8, xy.extractLsb' 0 8, z)
  | .ldswq xy z => (xy.extractLsb' 8 8, xy.extractLsb' 0 8, z)
  | .shlqImm x y z => (x, y, z)
  | .salqImm x y z => (x, y, z)
  | .shrqImm x y z => (x, y, z)
  | .sarqImm x y z => (x, y, z)
  | .shldwq xy z => (xy.extractLsb' 8 8, xy.extractLsb' 0 8, z)
  | .notq x y => (x, y, 0)
  | .getc x => (x, 0, 0)
  | .putcReg x => (x, 0, 0)
  | .putcImm x => (x, 0, 0)
  | .movqLoadScaled2 x y z => (x, y, z)
  | .movzlqScaled2 x y z => (x, y, z)
  | .movzwqScaled2 x y z => (x, y, z)
  | .movzbqScaled2 x y z => (x, y, z)
  | .movslqScaled2 x y z => (x, y, z)
  | .movswqScaled2 x y z => (x, y, z)
  | .movsbqScaled2 x y z => (x, y, z)
  | .movqStoreScaled2 x y z => (x, y, z)
  | .movlScaled2 x y z => (x, y, z)
  | .movwScaled2 x y z => (x, y, z)
  | .movbScaled2 x y z => (x, y, z)
  | .movqLoadScaled4 x y z => (x, y, z)
  | .movzlqScaled4 x y z => (x, y, z)
  | .movzwqScaled4 x y z => (x, y, z)
  | .movzbqScaled4 x y z => (x, y, z)
  | .movslqScaled4 x y z => (x, y, z)
  | .movswqScaled4 x y z => (x, y, z)
  | .movsbqScaled4 x y z => (x, y, z)
  | .movqStoreScaled4 x y z => (x, y, z)
  | .movlScaled4 x y z => (x, y, z)
  | .movwScaled4 x y z => (x, y, z)
  | .movbScaled4 x y z => (x, y, z)
  | .movqLoadScaled8 x y z => (x, y, z)
  | .movzlqScaled8 x y z => (x, y, z)
  | .movzwqScaled8 x y z => (x, y, z)
  | .movzbqScaled8 x y z => (x, y, z)
  | .movslqScaled8 x y z => (x, y, z)
  | .movswqScaled8 x y z => (x, y, z)
  | .movsbqScaled8 x y z => (x, y, z)
  | .movqStoreScaled8 x y z => (x, y, z)
  | .movlScaled8 x y z => (x, y, z)
  | .movwScaled8 x y z => (x, y, z)
  | .movbScaled8 x y z => (x, y, z)
  | .nop => (0, 0, 0)

/-- The instruction word `Op X Y Z`, Op the high byte (R60). -/
def encodeWord (i : Instr) : BitVec 32 :=
  i.opcode ++ i.operandBytes.1 ++ i.operandBytes.2.1 ++ i.operandBytes.2.2

/-- The bytes of the instruction in the order they lie in memory (R60, spec/20_memory.md R45). -/
def encode (i : Instr) : List Byte :=
  [i.opcode, i.operandBytes.1, i.operandBytes.2.1, i.operandBytes.2.2]

end Sys2Proof
end

