-- ==== Sys2Proof/Machine/Fetch.lean ====
section
/-! DEFINITION. Fetch and decode, the first half of the instruction cycle (spec/60_exceptions.md R311), and
an instruction word placed in memory (spec/20_memory.md R45). -/

namespace Sys2Proof.Machine

/-- `W = MemRead(ip, 4)` as its four bytes, Op first (R45): fetch alignment, then admission (R310 steps 1
and 2). -/
def State.fetchBytes (s : State) : Except RaisedFault (List Byte) :=
  if s.ip.toNat % 4 ≠ 0 then .error (.alignmentFault s.ip)
  else if s.platform.admits s.ip 4 then .ok (s.mem.readBytes s.ip 4)
  else .error (.memoryAccessFault s.ip)

/-- The fault of bytes that are no instruction (R302). A fetch gives four bytes, so `truncated` does not
arise; it is given the word of the bytes that are there. -/
def decodeFault (bs : List Byte) : DecodeError → RaisedFault
  | .illegalOpcode w => .illegalInstruction w
  | .truncated => .illegalInstruction (BitVec.ofNat 32 (bigEndianValue bs))

/-- The instruction at `%ip`, or the fault that its fetch or decode raises (R311). -/
def State.fetchInstr (s : State) : Except RaisedFault Instr :=
  match s.fetchBytes with
  | .error f => .error f
  | .ok bs =>
    match decode bs with
    | .ok (i, _) => .ok i
    | .error e => .error (decodeFault bs e)

/-- The memory with the 32-bit word `w` stored big endian at `a` (R45). -/
def Memory.placeWord (m : Memory) (a : Word) (w : BitVec 32) : Memory :=
  m.writeBytes a (wordBytes w)

end Sys2Proof.Machine
end

