-- ==== Sys2Proof/Machine/Step.lean ====
section
/-! DEFINITION. One step of the machine (spec/60_exceptions.md R311), and an instruction placed where the
next step fetches it. -/

namespace Sys2Proof.Machine

/-- One step (R311): when the run status is running, fetch, decode and execute; the faults of the fetch and
the decode are raised like any other (R301). When it is halted or faulted there is no step (log entry 9). -/
def step (s : State) : Host.Outcome State Fault Refusal :=
  match s.status with
  | .halted code => .fault (.machineHalted code)
  | .faulted f => .fault (.machineFaulted f)
  | .running =>
    match s.fetchInstr with
    | .error f => raised s f
    | .ok i => exec i s

/-- `s` with the instruction word whose low `nbits` bits are those of `w` (numbered as
spec/opcode_table.json numbers them, the bits above 0) stored big endian at `%ip`, where the next step
fetches (R45, log entry 7). Nothing else changes. -/
def State.withFetchWord (s : State) (nbits w : Nat) : State :=
  s.setMem (s.mem.placeWord s.ip (BitVec.ofNat 32 (w % 2 ^ nbits)))

end Sys2Proof.Machine
end

