-- ==== Sys2Proof/Safety.lean ====
section
/-! DEFINITION. The terms in which claims about the ULM are stated: what a value in memory is, what stays
the same across an instruction, the tables of spec/10_state.md R28 and spec/60_exceptions.md R309, and the
invariant. They are written from the spec's words, not from the meanings, so that a claim compares two
descriptions. -/

namespace Sys2Proof.Machine

/-- `pat_64(u(ip) + 4)`, where sequential advance goes (R25). -/
def State.nextIp (s : State) : Word := BitVec.ofNat 64 (s.ip.toNat + 4)

/-- What `%z` reads after `x[z] <- v`: `v`, or 0 if `%z` is the zero register (R21). -/
def State.Received (t : State) (z : Reg) (v : Word) : Prop :=
  t.readReg z = if z = 0 then 0 else v

/-- Every register but those listed reads as before. -/
def State.RegsKept (s t : State) (zs : List Reg) : Prop :=
  ∀ r : Reg, r ∉ zs → t.readReg r = s.readReg r

/-- Every byte of memory reads as before. -/
def State.BytesKept (s t : State) : Prop :=
  ∀ b : Nat, t.mem.read b = s.mem.read b

/-- Every byte of memory but the `n` bytes `a, a+1, …` (mod 2^64) reads as before. -/
def State.BytesKeptOutside (s t : State) (a : Word) (n : Nat) : Prop :=
  ∀ b : Nat, (∀ i, i < n → b ≠ (a + BitVec.ofNat 64 i).toNat) → t.mem.read b = s.mem.read b

/-- The run status, the devices, the host and the installation are as before. -/
def State.WorldKept (s t : State) : Prop :=
  t.status = s.status ∧ t.input = s.input ∧ t.output = s.output ∧ t.hostLog = s.hostLog ∧
    t.hostReplies = s.hostReplies ∧ t.platform = s.platform

/-- Nothing but `%ip`, the flags and the listed registers may differ. -/
def State.OnlyRegs (s t : State) (zs : List Reg) : Prop :=
  s.RegsKept t zs ∧ s.BytesKept t ∧ s.WorldKept t ∧ t.draws = s.draws

/-- The flags an instruction does not name: unchanged unless the installation chose
`SILENT_FLAGS = arbitrary`; no free value is drawn then (R29). -/
def State.SilentKept (s t : State) : Prop :=
  s.platform.silentFlags = .unchanged → t.flags = s.flags ∧ t.draws = s.draws

/-- `t` is `s` with the run status faulted(f) and nothing else changed, `%ip` included (R301). -/
def State.StoppedBy (s t : State) (f : RaisedFault) : Prop :=
  t = { s with status := .faulted f }

/-- `u(Mk(a))`: the sum of `u(M1(a+i)) * 256^(k-1-i)` (R42). -/
def State.memValue (s : State) (a : Word) (k : Nat) : Nat :=
  ∑ i ∈ Finset.range k, (s.mem.read (a + BitVec.ofNat 64 i).toNat).toNat * 256 ^ (k - 1 - i)

/-- `s(P)` of an n-bit pattern P with `u(P) = v` (R9). -/
def signedValue (n v : Nat) : Int :=
  if v < 2 ^ (n - 1) then (v : Int) else (v : Int) - 2 ^ n

/-- A load of `k` bytes at `a` into `%z` that goes through: `%z` receives the pattern of `value`, and
nothing else but `%ip` changes (R230, R267). -/
def State.Loads (s : State) (i : Instr) (a : Word) (k : Nat) (z : Reg) (value : Int) : Prop :=
  a.toNat % k = 0 → s.platform.admits a k = true →
    ∃ t, exec i s = .next t ∧ t.Received z (BitVec.ofInt 64 value) ∧ t.ip = s.nextIp ∧
      t.flags = s.flags ∧ s.OnlyRegs t [z]

/-- A store of the low `k` bytes of `v` at `a` that goes through: byte `j` of the stored range is byte `j` of
the pattern, most significant first, and nothing else but `%ip` changes (R44, R200, R221). -/
def State.Stores (s : State) (i : Instr) (a : Word) (k : Nat) (v : Word) : Prop :=
  s.mem.wf = true → a.toNat % k = 0 → s.platform.admits a k = true →
    ∃ t, exec i s = .next t ∧
      (∀ j, j < k → t.mem.read (a.toNat + j) = BitVec.ofNat 8 (v.toNat / 256 ^ (k - 1 - j))) ∧
      s.BytesKeptOutside t a k ∧ t.ip = s.nextIp ∧ t.flags = s.flags ∧ s.RegsKept t [] ∧
      s.WorldKept t ∧ t.draws = s.draws

/-- A data access of `k` bytes at a misaligned address `a` raises AlignmentFault(a), and nothing else
changes (R51, R223, R268). -/
def State.AlignmentFaults (s : State) (i : Instr) (a : Word) (k : Nat) : Prop :=
  a.toNat % k ≠ 0 → ∃ t, exec i s = .next t ∧ s.StoppedBy t (.alignmentFault a)

/-- A data access of `k` bytes at an aligned address `a`, one of which does not exist, raises
MemoryAccessFault(a), and nothing else changes (R53, R223, R268). -/
def State.AdmissionFaults (s : State) (i : Instr) (a : Word) (k : Nat) : Prop :=
  a.toNat % k = 0 → s.platform.admits a k = false →
    ∃ t, exec i s = .next t ∧ s.StoppedBy t (.memoryAccessFault a)

/-- The whole buffer `a, a+1, …, a+n-1` (mod 2^64) consists of bytes that exist (R149, R150). -/
def State.BufferAdmitted (s : State) (a : Word) (n : Nat) : Prop :=
  ∀ i, i < n → s.platform.admits (a + BitVec.ofNat 64 i) 1 = true

/-- The kinds of fault, by the name R302 to R308 give them. -/
inductive FaultName
  | illegalInstruction
  | alignment
  | memoryAccess
  | divideByZero
  | divideOverflow
  | registerIndex
  | unknownTrap
deriving DecidableEq, Repr

/-- The name of a fault. -/
def RaisedFault.name : RaisedFault → FaultName
  | .illegalInstruction _ => .illegalInstruction
  | .alignmentFault _ => .alignment
  | .memoryAccessFault _ => .memoryAccess
  | .divideByZero => .divideByZero
  | .divideOverflow => .divideOverflow
  | .registerIndexFault _ => .registerIndex
  | .unknownTrap _ => .unknownTrap

/-- The host kept to its contract in this exchange: a read delivered at most `nbyte` bytes, a write took at
most all of its data (R149, R150). -/
def HostEvent.WithinContract : HostEvent → Prop
  | .read _ n (.ok bs) => bs.length ≤ n
  | .read _ _ (.err _ _) => True
  | .write _ data (.ok k) => k ≤ data.length
  | .write _ _ (.err _ _) => True
  | .other _ _ _ => True

/-- What holds after reset and every step keeps: the memory is in its canonical form, so that equal memories
are equal data and a byte that was written reads back; and every recorded exchange kept the host's contract. -/
def State.Inv (s : State) : Prop :=
  s.mem.wf = true ∧ ∀ e ∈ s.hostLog, HostEvent.WithinContract e

/-- The 158 values of Op that no instruction has (R81). -/
def undefinedOpcode (op : Byte) : Bool :=
  let n := op.toNat
  n == 0x00 || (0x03 ≤ n && n ≤ 0x08) || (0x0A ≤ n && n ≤ 0x0F) || n == 0x14 || n == 0x1C ||
    (0x24 ≤ n && n ≤ 0x27) || (0x2C ≤ n && n ≤ 0x2F) || n == 0x36 || n == 0x37 || n == 0x3E || n == 0x3F ||
    (0x4C ≤ n && n ≤ 0x4F) || n == 0x55 || n == 0x58 || n == 0x59 || n == 0x5F || (0x62 ≤ n && n ≤ 0x68) ||
    (0x6A ≤ n && n ≤ 0x7F) || n == 0x84 || (0x88 ≤ n && n ≤ 0x8F) || (0x94 ≤ n && n ≤ 0x9F) || n == 0xA4 ||
    (0xA8 ≤ n && n ≤ 0xAF) || (0xB4 ≤ n && n ≤ 0xBF) || n == 0xC4 || (0xC8 ≤ n && n ≤ 0xCF) ||
    (0xD4 ≤ n && n ≤ 0xFE)

/-- The four bytes at `%ip` are `op`, `x`, `y`, `z`, in this order (R45). -/
def State.WordAtIp (s : State) (op x y z : Byte) : Prop :=
  s.mem.read s.ip.toNat = op ∧ s.mem.read (s.ip + 1).toNat = x ∧ s.mem.read (s.ip + 2).toNat = y ∧
    s.mem.read (s.ip + 3).toNat = z

/-- The machine is running and its next fetch goes through: `%ip` is a multiple of 4 and the four bytes
there exist (R310 steps 1 and 2). -/
def State.CanFetch (s : State) : Prop :=
  s.status = .running ∧ s.ip.toNat % 4 = 0 ∧ s.platform.admits s.ip 4 = true

end Sys2Proof.Machine

namespace Sys2Proof

open Sys2Proof.Machine

/-- The registers an instruction may write (R21 to R23 and the rule of each instruction). -/
def Instr.destinations : Instr → List Reg
  | .addqReg _ _ z | .addqImm _ _ z | .subqReg _ _ z | .subqImm _ _ z | .imulqReg _ _ z |
    .imulqImm _ _ z | .orq _ _ z | .andq _ _ z | .shlqReg _ _ z | .shlqImm _ _ z | .salqReg _ _ z |
    .salqImm _ _ z | .shrqReg _ _ z | .shrqImm _ _ z | .sarqReg _ _ z | .sarqImm _ _ z | .ldzwq _ z |
    .ldswq _ z | .shldwq _ z | .trap _ _ z | .movqLoad _ _ z | .movzlq _ _ z | .movzwq _ _ z |
    .movzbq _ _ z | .movslq _ _ z | .movswq _ _ z | .movsbq _ _ z | .movqLoadDisp _ _ z |
    .movzlqDisp _ _ z | .movzwqDisp _ _ z | .movzbqDisp _ _ z | .movslqDisp _ _ z | .movswqDisp _ _ z |
    .movsbqDisp _ _ z | .movqLoadScaled2 _ _ z | .movzlqScaled2 _ _ z | .movzwqScaled2 _ _ z |
    .movzbqScaled2 _ _ z | .movslqScaled2 _ _ z | .movswqScaled2 _ _ z | .movsbqScaled2 _ _ z |
    .movqLoadScaled4 _ _ z | .movzlqScaled4 _ _ z | .movzwqScaled4 _ _ z | .movzbqScaled4 _ _ z |
    .movslqScaled4 _ _ z | .movswqScaled4 _ _ z | .movsbqScaled4 _ _ z | .movqLoadScaled8 _ _ z |
    .movzlqScaled8 _ _ z | .movzwqScaled8 _ _ z | .movzbqScaled8 _ _ z | .movslqScaled8 _ _ z |
    .movswqScaled8 _ _ z | .movsbqScaled8 _ _ z => [z]
  | .mulqReg _ _ z | .mulqImm _ _ z | .idivqReg _ _ z | .idivqImm _ _ z => [z, z + 1]
  | .divqReg _ _ z | .divqImm _ _ z => [z, z + 1, z + 2]
  | .notq _ y | .jmpReg _ y => [y]
  | .getc x => [x]
  | .haltReg _ | .haltImm _ | .putcReg _ | .putcImm _ | .nop | .jmpRel _ | .je _ | .jz _ | .jne _ |
    .jnz _ | .jl _ | .jnge _ | .jge _ | .jnl _ | .jle _ | .jng _ | .jg _ | .jnle _ | .jb _ | .jnae _ |
    .jae _ | .jnb _ | .jbe _ | .jna _ | .ja _ | .jnbe _ | .movqStore _ _ _ | .movl _ _ _ | .movw _ _ _ |
    .movb _ _ _ | .movqStoreDisp _ _ _ | .movlDisp _ _ _ | .movwDisp _ _ _ | .movbDisp _ _ _ |
    .movqStoreScaled2 _ _ _ | .movlScaled2 _ _ _ | .movwScaled2 _ _ _ | .movbScaled2 _ _ _ |
    .movqStoreScaled4 _ _ _ | .movlScaled4 _ _ _ | .movwScaled4 _ _ _ | .movbScaled4 _ _ _ |
    .movqStoreScaled8 _ _ _ | .movlScaled8 _ _ _ | .movwScaled8 _ _ _ | .movbScaled8 _ _ _ => []

/-- The flags an instruction writes, ZF, CF, OF and SF in this order: the table of R28. -/
def Instr.flagsWritten : Instr → Bool × Bool × Bool × Bool
  | .addqReg _ _ _ | .addqImm _ _ _ | .subqReg _ _ _ | .subqImm _ _ _ => (true, true, true, true)
  | .mulqReg _ _ _ | .mulqImm _ _ _ | .imulqReg _ _ _ | .imulqImm _ _ _ => (false, true, true, false)
  | .andq _ _ _ | .orq _ _ _ | .notq _ _ | .ldswq _ _ | .ldzwq _ _ => (true, false, false, false)
  | .shlqReg _ _ _ | .shlqImm _ _ _ | .salqReg _ _ _ | .salqImm _ _ _ => (false, true, false, false)
  | .shldwq _ _ => (true, true, false, false)
  | .divqReg _ _ _ | .divqImm _ _ _ | .idivqReg _ _ _ | .idivqImm _ _ _ | .shrqReg _ _ _ |
    .shrqImm _ _ _ | .sarqReg _ _ _ | .sarqImm _ _ _ | .jmpReg _ _ | .getc _ | .trap _ _ _ |
    .haltReg _ | .haltImm _ | .putcReg _ | .putcImm _ | .nop | .jmpRel _ | .je _ | .jz _ | .jne _ |
    .jnz _ | .jl _ | .jnge _ | .jge _ | .jnl _ | .jle _ | .jng _ | .jg _ | .jnle _ | .jb _ | .jnae _ |
    .jae _ | .jnb _ | .jbe _ | .jna _ | .ja _ | .jnbe _ | .movqLoad _ _ _ | .movzlq _ _ _ |
    .movzwq _ _ _ | .movzbq _ _ _ | .movslq _ _ _ | .movswq _ _ _ | .movsbq _ _ _ |
    .movqLoadDisp _ _ _ | .movzlqDisp _ _ _ | .movzwqDisp _ _ _ | .movzbqDisp _ _ _ |
    .movslqDisp _ _ _ | .movswqDisp _ _ _ | .movsbqDisp _ _ _ | .movqLoadScaled2 _ _ _ |
    .movzlqScaled2 _ _ _ | .movzwqScaled2 _ _ _ | .movzbqScaled2 _ _ _ | .movslqScaled2 _ _ _ |
    .movswqScaled2 _ _ _ | .movsbqScaled2 _ _ _ | .movqLoadScaled4 _ _ _ | .movzlqScaled4 _ _ _ |
    .movzwqScaled4 _ _ _ | .movzbqScaled4 _ _ _ | .movslqScaled4 _ _ _ | .movswqScaled4 _ _ _ |
    .movsbqScaled4 _ _ _ | .movqLoadScaled8 _ _ _ | .movzlqScaled8 _ _ _ | .movzwqScaled8 _ _ _ |
    .movzbqScaled8 _ _ _ | .movslqScaled8 _ _ _ | .movswqScaled8 _ _ _ | .movsbqScaled8 _ _ _ |
    .movqStore _ _ _ | .movl _ _ _ | .movw _ _ _ | .movb _ _ _ | .movqStoreDisp _ _ _ |
    .movlDisp _ _ _ | .movwDisp _ _ _ | .movbDisp _ _ _ | .movqStoreScaled2 _ _ _ | .movlScaled2 _ _ _ |
    .movwScaled2 _ _ _ | .movbScaled2 _ _ _ | .movqStoreScaled4 _ _ _ | .movlScaled4 _ _ _ |
    .movwScaled4 _ _ _ | .movbScaled4 _ _ _ | .movqStoreScaled8 _ _ _ | .movlScaled8 _ _ _ |
    .movwScaled8 _ _ _ | .movbScaled8 _ _ _ => (false, false, false, false)

/-- The faults an instruction can raise when it executes: the table of R309. -/
def Instr.canRaise : Instr → List FaultName
  | .mulqReg _ _ _ | .mulqImm _ _ _ => [.registerIndex]
  | .divqReg _ _ _ | .divqImm _ _ _ => [.registerIndex, .divideByZero]
  | .idivqReg _ _ _ | .idivqImm _ _ _ => [.registerIndex, .divideByZero, .divideOverflow]
  | .movqLoad _ _ _ | .movzlq _ _ _ | .movzwq _ _ _ | .movslq _ _ _ | .movswq _ _ _ |
    .movqLoadDisp _ _ _ | .movzlqDisp _ _ _ | .movzwqDisp _ _ _ | .movslqDisp _ _ _ |
    .movswqDisp _ _ _ | .movqLoadScaled2 _ _ _ | .movzlqScaled2 _ _ _ | .movzwqScaled2 _ _ _ |
    .movslqScaled2 _ _ _ | .movswqScaled2 _ _ _ | .movqLoadScaled4 _ _ _ | .movzlqScaled4 _ _ _ |
    .movzwqScaled4 _ _ _ | .movslqScaled4 _ _ _ | .movswqScaled4 _ _ _ | .movqLoadScaled8 _ _ _ |
    .movzlqScaled8 _ _ _ | .movzwqScaled8 _ _ _ | .movslqScaled8 _ _ _ | .movswqScaled8 _ _ _ |
    .movqStore _ _ _ | .movl _ _ _ | .movw _ _ _ | .movqStoreDisp _ _ _ | .movlDisp _ _ _ |
    .movwDisp _ _ _ | .movqStoreScaled2 _ _ _ | .movlScaled2 _ _ _ | .movwScaled2 _ _ _ |
    .movqStoreScaled4 _ _ _ | .movlScaled4 _ _ _ | .movwScaled4 _ _ _ | .movqStoreScaled8 _ _ _ |
    .movlScaled8 _ _ _ | .movwScaled8 _ _ _ => [.alignment, .memoryAccess]
  | .movzbq _ _ _ | .movsbq _ _ _ | .movzbqDisp _ _ _ | .movsbqDisp _ _ _ | .movzbqScaled2 _ _ _ |
    .movsbqScaled2 _ _ _ | .movzbqScaled4 _ _ _ | .movsbqScaled4 _ _ _ | .movzbqScaled8 _ _ _ |
    .movsbqScaled8 _ _ _ | .movb _ _ _ | .movbDisp _ _ _ | .movbScaled2 _ _ _ | .movbScaled4 _ _ _ |
    .movbScaled8 _ _ _ => [.memoryAccess]
  | .trap _ _ _ => [.unknownTrap, .alignment, .memoryAccess]
  | .haltReg _ | .haltImm _ | .addqReg _ _ _ | .subqReg _ _ _ | .imulqReg _ _ _ | .addqImm _ _ _ |
    .subqImm _ _ _ | .imulqImm _ _ _ | .jmpReg _ _ | .jmpRel _ | .je _ | .jz _ | .jne _ | .jnz _ |
    .jl _ | .jnge _ | .jge _ | .jnl _ | .jle _ | .jng _ | .jg _ | .jnle _ | .jb _ | .jnae _ | .jae _ |
    .jnb _ | .jbe _ | .jna _ | .ja _ | .jnbe _ | .orq _ _ _ | .andq _ _ _ | .shlqReg _ _ _ |
    .salqReg _ _ _ | .shrqReg _ _ _ | .sarqReg _ _ _ | .ldzwq _ _ | .ldswq _ _ | .shlqImm _ _ _ |
    .salqImm _ _ _ | .shrqImm _ _ _ | .sarqImm _ _ _ | .shldwq _ _ | .notq _ _ | .getc _ | .putcReg _ |
    .putcImm _ | .nop => []

/-- Whether an instruction may change memory: the stores, trap (R46), and halt on a platform with `LAST_CELL` (R146). -/
def Instr.touchesMemory : Instr → Bool
  | .movqStore _ _ _ | .movl _ _ _ | .movw _ _ _ | .movb _ _ _ | .movqStoreDisp _ _ _ |
    .movlDisp _ _ _ | .movwDisp _ _ _ | .movbDisp _ _ _ | .movqStoreScaled2 _ _ _ | .movlScaled2 _ _ _ |
    .movwScaled2 _ _ _ | .movbScaled2 _ _ _ | .movqStoreScaled4 _ _ _ | .movlScaled4 _ _ _ |
    .movwScaled4 _ _ _ | .movbScaled4 _ _ _ | .movqStoreScaled8 _ _ _ | .movlScaled8 _ _ _ |
    .movwScaled8 _ _ _ | .movbScaled8 _ _ _ | .trap _ _ _ | .haltReg _ | .haltImm _ => true
  | .movqLoad _ _ _ | .movzlq _ _ _ | .movzwq _ _ _ | .movzbq _ _ _ | .movslq _ _ _ | .movswq _ _ _ |
    .movsbq _ _ _ | .movqLoadDisp _ _ _ | .movzlqDisp _ _ _ | .movzwqDisp _ _ _ | .movzbqDisp _ _ _ |
    .movslqDisp _ _ _ | .movswqDisp _ _ _ | .movsbqDisp _ _ _ | .addqReg _ _ _ | .subqReg _ _ _ |
    .mulqReg _ _ _ | .divqReg _ _ _ | .imulqReg _ _ _ | .idivqReg _ _ _ | .addqImm _ _ _ |
    .subqImm _ _ _ | .mulqImm _ _ _ | .divqImm _ _ _ | .imulqImm _ _ _ | .idivqImm _ _ _ | .jmpReg _ _ |
    .jmpRel _ | .je _ | .jz _ | .jne _ | .jnz _ | .jl _ | .jnge _ | .jge _ | .jnl _ | .jle _ | .jng _ |
    .jg _ | .jnle _ | .jb _ | .jnae _ | .jae _ | .jnb _ | .jbe _ | .jna _ | .ja _ | .jnbe _ |
    .orq _ _ _ | .andq _ _ _ | .shlqReg _ _ _ | .salqReg _ _ _ | .shrqReg _ _ _ | .sarqReg _ _ _ |
    .ldzwq _ _ | .ldswq _ _ | .shlqImm _ _ _ | .salqImm _ _ _ | .shrqImm _ _ _ | .sarqImm _ _ _ |
    .shldwq _ _ | .notq _ _ | .getc _ | .putcReg _ | .putcImm _ | .movqLoadScaled2 _ _ _ |
    .movzlqScaled2 _ _ _ | .movzwqScaled2 _ _ _ | .movzbqScaled2 _ _ _ | .movslqScaled2 _ _ _ |
    .movswqScaled2 _ _ _ | .movsbqScaled2 _ _ _ | .movqLoadScaled4 _ _ _ | .movzlqScaled4 _ _ _ |
    .movzwqScaled4 _ _ _ | .movzbqScaled4 _ _ _ | .movslqScaled4 _ _ _ | .movswqScaled4 _ _ _ |
    .movsbqScaled4 _ _ _ | .movqLoadScaled8 _ _ _ | .movzlqScaled8 _ _ _ | .movzwqScaled8 _ _ _ |
    .movzbqScaled8 _ _ _ | .movslqScaled8 _ _ _ | .movswqScaled8 _ _ _ | .movsbqScaled8 _ _ _ | .nop => false

end Sys2Proof
end

