-- ==== Sys2Proof/Certificates/Slice0/Obligations.lean ====
section
/-! DEFINITION. The statements for the provers. Each is one `Prop` over the model of this package; its
docstring names the rules it formalises. Every statement about an instruction gives its decoding, the next
state it answers, and what stays the same (`State.OnlyRegs`, `State.RegsKept`, `State.BytesKept`,
`State.BytesKeptOutside`, `State.WorldKept` of Sys2Proof/Safety.lean). -/

open Sys2Proof Sys2Proof.Machine

/-! ### Encoding -/

/-- Decoding the bytes of any instruction that is not an alias spelling gives it back, whatever follows. -/
def Obligations.DecodeEncodeRoundTrip : Prop :=
  ∀ (i : Instr) (rest : List Byte), i.wellFormed = true → decode (encode i ++ rest) = .ok (i, rest)

/-- Encoding what four bytes decode to gives the four bytes back, with 0 in the bytes the format ignores. -/
def Obligations.EncodeDecodeRoundTrip : Prop :=
  ∀ (op x y z : Byte) (i : Instr), decodeFields op x y z = some i →
    i.wellFormed = true ∧
    encode i =
      if op ∈ [0x01, 0x09, 0x60, 0x61, 0x69] then [op, x, 0, 0]
      else if op ∈ [0x40, 0x5E] then [op, x, y, 0]
      else if op = 0xFF then [op, 0, 0, 0]
      else [op, x, y, z]

/-- R81, R302: exactly the 158 listed values of Op have no instruction, and executing a word with one of them
raises IllegalInstruction of that word and changes nothing else. -/
def Obligations.UndefinedOpcodesAreIllegal : Prop :=
  (∀ op x y z : Byte, decodeFields op x y z = none ↔ undefinedOpcode op = true) ∧
  ((List.range 256).filter fun n => undefinedOpcode (BitVec.ofNat 8 n)).length = 158 ∧
  ∀ (op x y z : Byte) (s : State), undefinedOpcode op = true → s.CanFetch → s.WordAtIp op x y z →
    ∃ t, step s = .next t ∧ s.StoppedBy t (.illegalInstruction (op ++ x ++ y ++ z)) ∧
      RaisedFault.code (.illegalInstruction (op ++ x ++ y ++ z)) = 1

/-- R82: the bytes a format does not use are ignored in decoding. That the encoder puts 0 there is the model's
choice (log entry 21): R82 only advises an assembler to do so. -/
def Obligations.UnusedBytesIgnored : Prop :=
  (∀ op x y z : Byte, op ∈ [(0x01 : Byte), 0x09, 0x60, 0x61, 0x69] →
    decodeFields op x y z = decodeFields op x 0 0) ∧
  (∀ op x y z : Byte, op ∈ [(0x40 : Byte), 0x5E] → decodeFields op x y z = decodeFields op x y 0) ∧
  (∀ x y z : Byte, decodeFields 0xFF x y z = some .nop) ∧
  (∀ x : Byte, encode (.haltReg x) = [0x01, x, 0, 0] ∧ encode (.haltImm x) = [0x09, x, 0, 0] ∧
    encode (.getc x) = [0x60, x, 0, 0] ∧ encode (.putcReg x) = [0x61, x, 0, 0] ∧
    encode (.putcImm x) = [0x69, x, 0, 0]) ∧
  (∀ x y : Byte, encode (.jmpReg x y) = [0x40, x, y, 0] ∧ encode (.notq x y) = [0x5E, x, y, 0]) ∧
  encode .nop = [0xFF, 0, 0, 0]

/-- Words of the spec's own examples decode to the instructions they stand for, one or more per family. -/
def Obligations.SampleWordsDecode : Prop :=
  decodeWord 0x30010203 = .ok (.addqReg 1 2 3) ∧
  decodeWord 0x3CFE0203 = .ok (.imulqImm 0xFE 2 3) ∧
  decodeWord 0x5A010203 = .ok (.shlqImm 1 2 3) ∧
  decodeWord 0x57FFFE03 = .ok (.ldswq 0xFFFE 3) ∧
  decodeWord 0x41FFFFFE = .ok (.jmpRel 0xFFFFFE) ∧
  decodeWord 0x4A000002 = .ok (.jbe 2) ∧
  decodeWord 0x2A01F802 = .ok (.movwDisp 1 0xF8 2) ∧
  decodeWord 0xC5010203 = .ok (.movslqScaled8 1 2 3) ∧
  decodeWord 0x0905AABB = .ok (.haltImm 5) ∧
  decodeWord 0x02010203 = .ok (.trap 1 2 3)

/-- R94: each of the twelve alias spellings has the words and the meaning of the mnemonic it names. -/
def Obligations.AliasesShareMeaning : Prop :=
  ∀ (x y z : Byte) (o : Imm24) (a c : Instr),
    (a, c) ∈ [(.salqReg x y z, .shlqReg x y z), (.salqImm x y z, .shlqImm x y z), (.jz o, .je o),
      (.jnz o, .jne o), (.jnge o, .jl o), (.jnl o, .jge o), (.jng o, .jle o), (.jnle o, .jg o),
      (.jnae o, .jb o), (.jnb o, .jae o), (.jna o, .jbe o), (.jnbe o, (.ja o : Instr))] →
    encode a = encode c ∧ a.wellFormed = false ∧ c.wellFormed = true ∧ ∀ s, exec a s = exec c s

/-! ### The instruction cycle, faults and reset -/

/-- R311: where the fetch goes through, a step is the meaning of the instruction that the four bytes at
`%ip` decode to. The model adds nothing around it: each meaning moves `%ip` itself. -/
def Obligations.StepRunsDecodedInstruction : Prop :=
  (∀ (s : State) (op x y z : Byte) (i : Instr), s.CanFetch → s.WordAtIp op x y z →
    decodeFields op x y z = some i → step s = exec i s) ∧
  (∀ (s : State) (op x y z : Byte) (i : Instr), s.CanFetch → s.WordAtIp op x y z → i.wellFormed = true →
    encode i = [op, x, y, z] → step s = exec i s)

/-- R52, R310, R311: a fetch at an address that is not a multiple of 4 raises AlignmentFault of that address
(R52 is the spec's own decision D7; log entry 26); R53, R304, R310, R311: an aligned fetch of bytes that do not
all exist raises MemoryAccessFault of it. -/
def Obligations.FetchFaults : Prop :=
  ∀ s : State, s.status = .running →
    (s.ip.toNat % 4 ≠ 0 → ∃ t, step s = .next t ∧ s.StoppedBy t (.alignmentFault s.ip)) ∧
    (s.ip.toNat % 4 = 0 → s.platform.admits s.ip 4 = false →
      ∃ t, step s = .next t ∧ s.StoppedBy t (.memoryAccessFault s.ip))

/-- R311 with log entry 9: a halted or faulted machine has no next state. -/
def Obligations.StoppedMachineTakesNoStep : Prop :=
  (∀ (s : State) (c : Byte), s.status = .halted c → step s = .fault (.machineHalted c)) ∧
  (∀ (s : State) (f : RaisedFault), s.status = .faulted f → step s = .fault (.machineFaulted f))

/-- R301: whichever step ends in the faulted status, nothing but the run status has changed, and there is no
step after it. -/
def Obligations.FaultsArePrecise : Prop :=
  ∀ (s t : State) (f : RaisedFault), step s = .next t → t.status = .faulted f →
    s.StoppedBy t f ∧ ∀ u, step t ≠ .next u

/-- R309: an instruction raises no fault but those its row of the table names. -/
def Obligations.FaultsByInstruction : Prop :=
  ∀ (i : Instr) (s t : State) (f : RaisedFault), s.status = .running → exec i s = .next t →
    t.status = .faulted f → f.name ∈ i.canRaise

/-- Every instruction has an outcome in every state: a next state, never a refusal. Three choices of the model
stand in this: a fault of R301 is a next state (log entry 8), a getc that waits, whose step R311 says does not
complete, answers the unchanged state (log entry 10), and exec does not look at the run status (log entry 35). -/
def Obligations.EveryInstructionHasNextState : Prop :=
  ∀ (i : Instr) (s : State), ∃ t, exec i s = .next t

/-- R21: the zero register reads 0 and discards writes; every other register reads as last written, and a
write changes no other register. -/
def Obligations.RegisterReadAfterWrite : Prop :=
  (∀ s : State, s.readReg 0 = 0) ∧
  (∀ (s : State) (v : Word), s.writeReg 0 v = s) ∧
  (∀ (s : State) (z q : Reg) (v : Word),
    (s.writeReg z v).readReg q = if q = z ∧ z ≠ 0 then v else s.readReg q)

/-- R34, with the defaults of R8 and R53: what the spec fixes of the start state. The registers, flags and memory that R34 leaves
unspecified are the model's choices (log entries 3, 4, 5) and not stated here. -/
def Obligations.ResetValues : Prop :=
  State.reset.ip = 0 ∧ State.reset.status = .running ∧ State.reset.readReg 0 = 0 ∧
    State.reset.output = [] ∧ State.reset.platform.wrappingRanges = [] ∧
    State.reset.platform.lastCell = none ∧ State.reset.platform.getcUpper = .zero ∧
    State.reset.platform.idivqOverflow = .fault ∧ State.reset.platform.mulqFlags = .literal ∧
    State.reset.platform.silentFlags = .unchanged ∧ State.reset.platform.extraTraps = []

/-- The invariant of `StepKeepsInvariant` holds after reset. -/
def Obligations.ResetHasInvariant : Prop :=
  State.reset.Inv

/-- Every step from any state keeps the invariant: the memory stays in its canonical form, and every recorded
host exchange keeps the contract of R149 and R150. -/
def Obligations.StepKeepsInvariant : Prop :=
  ∀ s t : State, s.Inv → step s = .next t → t.Inv

/-- R53: no step changes what a byte that does not exist reads as, but for the byte an installation names as
`LAST_CELL` (R146). -/
def Obligations.AbsentBytesNeverChange : Prop :=
  ∀ (s t : State) (b : Nat), step s = .next t → s.platform.byteExists b = false →
    (∀ l, s.platform.lastCell = some l → b ≠ l.toNat) → t.mem.read b = s.mem.read b

/-- R28, R29: under `SILENT_FLAGS = unchanged` an instruction changes no flag but those its row of the table
names. -/
def Obligations.UnnamedFlagsKept : Prop :=
  ∀ (i : Instr) (s t : State), s.platform.silentFlags = .unchanged → exec i s = .next t →
    (i.flagsWritten.1 = false → t.flags.zf = s.flags.zf) ∧
    (i.flagsWritten.2.1 = false → t.flags.cf = s.flags.cf) ∧
    (i.flagsWritten.2.2.1 = false → t.flags.of = s.flags.of) ∧
    (i.flagsWritten.2.2.2 = false → t.flags.sf = s.flags.sf)

/-- Every instruction leaves alone each register but its destinations, and memory unless it is a store,
trap, or halt (R21, R46, R146). -/
def Obligations.RegisterAndMemoryFootprint : Prop :=
  ∀ (i : Instr) (s t : State), exec i s = .next t →
    s.RegsKept t i.destinations ∧ (i.touchesMemory = false → t.mem = s.mem)

/-- R33, R58, R313: only getc consumes input, and from its front; only putc extends the output, and at its
end; only trap reaches the host; nothing changes the installation's parameters. -/
def Obligations.DeviceFootprint : Prop :=
  ∀ (i : Instr) (s t : State), exec i s = .next t →
    t.platform = s.platform ∧
    (∃ taken, s.input = taken ++ t.input ∧ ((∀ x, i ≠ .getc x) → taken = [])) ∧
    (∃ added, t.output = s.output ++ added ∧ ((∀ x, i ≠ .putcReg x ∧ i ≠ .putcImm x) → added = [])) ∧
    (∃ events, t.hostLog = s.hostLog ++ events ∧ ((∀ x y z, i ≠ .trap x y z) → events = [])) ∧
    ((∀ x y z, i ≠ .trap x y z) → t.hostReplies = s.hostReplies)

/-- R26: from an aligned `%ip` every instruction but the register form of jmp leaves `%ip` aligned. -/
def Obligations.InstructionPointerStaysAligned : Prop :=
  ∀ (i : Instr) (s t : State), s.ip.toNat % 4 = 0 → (∀ x y, i ≠ .jmpReg x y) → exec i s = .next t →
    t.ip.toNat % 4 = 0

/-! ### Integer arithmetic -/

/-- R100, R101: addq, both forms. -/
def Obligations.AddqSum : Prop :=
  ∀ (x y z : Byte) (s : State),
    decodeFields 0x30 x y z = some (.addqReg x y z) ∧ decodeFields 0x38 x y z = some (.addqImm x y z) ∧
    ∀ (i : Instr) (a b : Word),
      (i = .addqReg x y z ∧ a = s.readReg x ∨ i = .addqImm x y z ∧ a = BitVec.ofNat 64 x.toNat) →
      b = s.readReg y →
      ∃ t, exec i s = .next t ∧
        t.Received z (BitVec.ofNat 64 (a.toNat + b.toNat)) ∧
        (t.flags.cf = true ↔ 2 ^ 64 ≤ a.toNat + b.toNat) ∧
        (t.flags.of = true ↔ 2 ^ 63 ≤ a.toInt + b.toInt ∨ a.toInt + b.toInt < -2 ^ 63) ∧
        (t.flags.sf = true ↔ 2 ^ 63 ≤ (a.toNat + b.toNat) % 2 ^ 64) ∧
        (t.flags.zf = true ↔ (a.toNat + b.toNat) % 2 ^ 64 = 0) ∧
        t.ip = s.nextIp ∧ s.OnlyRegs t [z]

/-- R102, R103: subq, both forms, the second operand minus the first. -/
def Obligations.SubqDifference : Prop :=
  ∀ (x y z : Byte) (s : State),
    decodeFields 0x31 x y z = some (.subqReg x y z) ∧ decodeFields 0x39 x y z = some (.subqImm x y z) ∧
    ∀ (i : Instr) (a b : Word),
      (i = .subqReg x y z ∧ a = s.readReg x ∨ i = .subqImm x y z ∧ a = BitVec.ofNat 64 x.toNat) →
      b = s.readReg y →
      ∃ t, exec i s = .next t ∧
        t.Received z (BitVec.ofInt 64 ((b.toNat : Int) - a.toNat)) ∧
        (t.flags.zf = true ↔ a = b) ∧
        (t.flags.cf = true ↔ b.toNat < a.toNat) ∧
        (t.flags.of = true ↔ b.toInt - a.toInt < -2 ^ 63 ∨ 2 ^ 63 ≤ b.toInt - a.toInt) ∧
        (t.flags.sf = true ↔ 2 ^ 63 ≤ ((b.toNat : Int) - a.toNat) % 2 ^ 64) ∧
        t.ip = s.nextIp ∧ s.OnlyRegs t [z]

/-- R104, R105: mulq, both forms. Under `MULQ_FLAGS = arbitrary` CF and OF are free and nothing is said of
them. -/
def Obligations.MulqProduct : Prop :=
  ∀ (x y z : Byte) (s : State),
    decodeFields 0x32 x y z = some (.mulqReg x y z) ∧ decodeFields 0x3A x y z = some (.mulqImm x y z) ∧
    ∀ (i : Instr) (p : Nat),
      (i = .mulqReg x y z ∧ p = (s.readReg x).toNat * (s.readReg y).toNat ∨
        i = .mulqImm x y z ∧ p = x.toNat * (s.readReg y).toNat) →
      (z ≠ 255 → ∃ t, exec i s = .next t ∧
        t.Received z (BitVec.ofNat 64 (p % 2 ^ 64)) ∧
        t.readReg (z + 1) = BitVec.ofNat 64 (p / 2 ^ 64) ∧
        t.flags.zf = s.flags.zf ∧ t.flags.sf = s.flags.sf ∧
        (s.platform.mulqFlags = .literal →
          (t.flags.cf = true ↔ p % 2 ^ 64 = 0) ∧ (t.flags.of = true ↔ p % 2 ^ 64 = 0) ∧
            t.draws = s.draws) ∧
        t.ip = s.nextIp ∧ s.RegsKept t [z, z + 1] ∧ s.BytesKept t ∧ s.WorldKept t) ∧
      (z = 255 → ∃ t, exec i s = .next t ∧ s.StoppedBy t (.registerIndexFault z))

/-- R307: the neighbour registers of mulq, divq and idivq must exist; divq reports Y before Z. -/
def Obligations.NeighbourRegisterFaults : Prop :=
  (∀ x y z : Byte, decodeFields 0x32 x y z = some (.mulqReg x y z) ∧
    decodeFields 0x3A x y z = some (.mulqImm x y z) ∧ decodeFields 0x33 x y z = some (.divqReg x y z) ∧
    decodeFields 0x3B x y z = some (.divqImm x y z) ∧ decodeFields 0x35 x y z = some (.idivqReg x y z) ∧
    decodeFields 0x3D x y z = some (.idivqImm x y z)) ∧
  (∀ r : Reg, RaisedFault.code (.registerIndexFault r) = 6) ∧
  ∀ (x y z : Byte) (s : State) (i : Instr),
    ((i = .mulqReg x y z ∨ i = .mulqImm x y z ∨ i = .idivqReg x y z ∨ i = .idivqImm x y z) → z = 255 →
      ∃ t, exec i s = .next t ∧ s.StoppedBy t (.registerIndexFault z)) ∧
    ((i = .divqReg x y z ∨ i = .divqImm x y z) → y = 255 →
      ∃ t, exec i s = .next t ∧ s.StoppedBy t (.registerIndexFault y)) ∧
    ((i = .divqReg x y z ∨ i = .divqImm x y z) → y ≠ 255 → 254 ≤ z.toNat →
      ∃ t, exec i s = .next t ∧ s.StoppedBy t (.registerIndexFault z))

/-- R106, R107: imulq, both forms; the immediate is sign-extended. -/
def Obligations.ImulqProduct : Prop :=
  ∀ (x y z : Byte) (s : State),
    decodeFields 0x34 x y z = some (.imulqReg x y z) ∧ decodeFields 0x3C x y z = some (.imulqImm x y z) ∧
    ∀ (i : Instr) (a b p : Word),
      (i = .imulqReg x y z ∧ a = s.readReg x ∨ i = .imulqImm x y z ∧ a = BitVec.ofInt 64 x.toInt) →
      b = s.readReg y → p = BitVec.ofNat 64 (a.toNat * b.toNat) →
      ∃ t, exec i s = .next t ∧
        t.Received z p ∧
        (t.flags.cf = true ↔ a.toNat * b.toNat ≠ p.toNat) ∧
        (t.flags.of = true ↔ a.toInt * b.toInt ≠ p.toInt) ∧
        t.flags.zf = s.flags.zf ∧ t.flags.sf = s.flags.sf ∧
        t.ip = s.nextIp ∧ s.OnlyRegs t [z]

/-- R108, R109: divq, both forms: the 128-bit dividend `%(y+1)%y`, the 128-bit quotient to `%(z+1)%z`, the
remainder to `%(z+2)`; the faults in the order of R310. -/
def Obligations.DivqQuotient : Prop :=
  ∀ (x y z : Byte) (s : State),
    decodeFields 0x33 x y z = some (.divqReg x y z) ∧ decodeFields 0x3B x y z = some (.divqImm x y z) ∧
    ∀ (i : Instr) (d n : Nat),
      (i = .divqReg x y z ∧ d = (s.readReg x).toNat ∨ i = .divqImm x y z ∧ d = x.toNat) →
      n = (s.readReg (y + 1)).toNat * 2 ^ 64 + (s.readReg y).toNat →
      (y ≠ 255 → z.toNat < 254 → d ≠ 0 → ∃ t, exec i s = .next t ∧
        t.Received z (BitVec.ofNat 64 (n / d % 2 ^ 64)) ∧
        t.readReg (z + 1) = BitVec.ofNat 64 (n / d / 2 ^ 64) ∧
        t.readReg (z + 2) = BitVec.ofNat 64 (n % d) ∧
        s.SilentKept t ∧ t.ip = s.nextIp ∧ s.RegsKept t [z, z + 1, z + 2] ∧ s.BytesKept t ∧ s.WorldKept t) ∧
      (y = 255 → ∃ t, exec i s = .next t ∧ s.StoppedBy t (.registerIndexFault y)) ∧
      (y ≠ 255 → 254 ≤ z.toNat → ∃ t, exec i s = .next t ∧ s.StoppedBy t (.registerIndexFault z)) ∧
      (y ≠ 255 → z.toNat < 254 → d = 0 → ∃ t, exec i s = .next t ∧ s.StoppedBy t .divideByZero)

/-- R114, R305: a zero divisor raises DivideByZero, once the register numbers are in range. -/
def Obligations.DivideByZeroFaults : Prop :=
  (∀ x y z : Byte, decodeFields 0x33 x y z = some (.divqReg x y z) ∧
    decodeFields 0x3B x y z = some (.divqImm x y z) ∧ decodeFields 0x35 x y z = some (.idivqReg x y z) ∧
    decodeFields 0x3D x y z = some (.idivqImm x y z)) ∧
  RaisedFault.code .divideByZero = 4 ∧
  ∀ (x y z : Byte) (s : State),
    ((s.readReg x).toNat = 0 → y ≠ 255 → z.toNat < 254 →
      ∃ t, exec (.divqReg x y z) s = .next t ∧ s.StoppedBy t .divideByZero) ∧
    (x.toNat = 0 → y ≠ 255 → z.toNat < 254 →
      ∃ t, exec (.divqImm x y z) s = .next t ∧ s.StoppedBy t .divideByZero) ∧
    ((s.readReg x).toInt = 0 → z ≠ 255 →
      ∃ t, exec (.idivqReg x y z) s = .next t ∧ s.StoppedBy t .divideByZero) ∧
    (x.toInt = 0 → z ≠ 255 → ∃ t, exec (.idivqImm x y z) s = .next t ∧ s.StoppedBy t .divideByZero)

/-- R110, R111: idivq, both forms: `q = sg * floor(|yv| / |xv|)` and `r = yv - xv * q`; -2^63 by -1 is
`IdivqOverflowCase`. -/
def Obligations.IdivqQuotient : Prop :=
  ∀ (x y z : Byte) (s : State),
    decodeFields 0x35 x y z = some (.idivqReg x y z) ∧ decodeFields 0x3D x y z = some (.idivqImm x y z) ∧
    ∀ (i : Instr) (xv yv sg q : Int),
      (i = .idivqReg x y z ∧ xv = (s.readReg x).toInt ∨ i = .idivqImm x y z ∧ xv = x.toInt) →
      yv = (s.readReg y).toInt → (sg = if 0 < yv * xv then 1 else -1) →
      q = sg * ((yv.natAbs / xv.natAbs : Nat) : Int) →
      (z ≠ 255 → xv ≠ 0 → (q ≠ 2 ^ 63 ∨ s.platform.idivqOverflow = .wrap) →
        ∃ t, exec i s = .next t ∧
          t.Received z (BitVec.ofInt 64 q) ∧ t.readReg (z + 1) = BitVec.ofInt 64 (yv - xv * q) ∧
          s.SilentKept t ∧ t.ip = s.nextIp ∧ s.RegsKept t [z, z + 1] ∧ s.BytesKept t ∧ s.WorldKept t) ∧
      (z = 255 → ∃ t, exec i s = .next t ∧ s.StoppedBy t (.registerIndexFault z)) ∧
      (z ≠ 255 → xv = 0 → ∃ t, exec i s = .next t ∧ s.StoppedBy t .divideByZero) ∧
      (z ≠ 255 → xv ≠ 0 → q = 2 ^ 63 → s.platform.idivqOverflow = .fault →
        ∃ t, exec i s = .next t ∧ s.StoppedBy t .divideOverflow)

/-- R115, R306: idivq of -2^63 by -1 under both values of `IDIVQ_OVERFLOW`. -/
def Obligations.IdivqOverflowCase : Prop :=
  (∀ x y z : Byte, decodeFields 0x35 x y z = some (.idivqReg x y z) ∧
    decodeFields 0x3D x y z = some (.idivqImm x y z)) ∧
  RaisedFault.code .divideOverflow = 5 ∧
  ∀ (x y z : Byte) (s : State) (i : Instr),
    (i = .idivqReg x y z ∧ (s.readReg x).toInt = -1 ∨ i = .idivqImm x y z ∧ x = 0xFF) →
    (s.readReg y).toInt = -2 ^ 63 → z ≠ 255 →
    (s.platform.idivqOverflow = .fault →
      ∃ t, exec i s = .next t ∧ s.StoppedBy t .divideOverflow) ∧
    (s.platform.idivqOverflow = .wrap →
      ∃ t, exec i s = .next t ∧ t.Received z 0x8000000000000000 ∧ t.readReg (z + 1) = 0 ∧
        s.SilentKept t ∧ t.ip = s.nextIp ∧ s.RegsKept t [z, z + 1] ∧ s.BytesKept t ∧ s.WorldKept t)

/-- What R110's and R111's formulas amount to, in both forms: where idivq completes without overflow, dividend =
divisor * quotient + remainder, the remainder is smaller than the divisor and is 0 or has the dividend's sign.
Where `%z` is the zero register the quotient `q` is discarded. -/
def Obligations.IdivqRoundsTowardZero : Prop :=
  ∀ (x y z : Byte) (s : State) (i : Instr) (d n : Int),
    (i = .idivqReg x y z ∧ d = (s.readReg x).toInt ∨ i = .idivqImm x y z ∧ d = x.toInt) →
    n = (s.readReg y).toInt → z ≠ 255 → d ≠ 0 → ¬(n = -2 ^ 63 ∧ d = -1) →
    ∃ (t : State) (q : Int), exec i s = .next t ∧
      (z ≠ 0 → (t.readReg z).toInt = q) ∧ (z = 0 → t.readReg z = 0) ∧
      n = d * q + (t.readReg (z + 1)).toInt ∧
      (t.readReg (z + 1)).toInt.natAbs < d.natAbs ∧
      (0 ≤ n → 0 ≤ (t.readReg (z + 1)).toInt) ∧ (n ≤ 0 → (t.readReg (z + 1)).toInt ≤ 0)

/-- R163 (last column), R174: after subq the ten conditional jumps compare the minuend `%y` with the
subtrahend, and go to the relative target exactly when the comparison holds. -/
def Obligations.CompareThenJump : Prop :=
  ∀ (x y z : Byte) (o : Imm24) (s : State) (i j : Instr) (a b : Word) (holds : Prop),
    (i = .subqReg x y z ∧ b = s.readReg x ∨ i = .subqImm x y z ∧ b = BitVec.ofNat 64 x.toNat) →
    a = s.readReg y →
    (j = .je o ∧ (holds ↔ a = b) ∨ j = .jne o ∧ (holds ↔ a ≠ b) ∨
      j = .jl o ∧ (holds ↔ a.toInt < b.toInt) ∨ j = .jge o ∧ (holds ↔ b.toInt ≤ a.toInt) ∨
      j = .jle o ∧ (holds ↔ a.toInt ≤ b.toInt) ∨ j = .jg o ∧ (holds ↔ b.toInt < a.toInt) ∨
      j = .jb o ∧ (holds ↔ a.toNat < b.toNat) ∨ j = .jae o ∧ (holds ↔ b.toNat ≤ a.toNat) ∨
      j = .jbe o ∧ (holds ↔ a.toNat ≤ b.toNat) ∨ j = .ja o ∧ (holds ↔ b.toNat < a.toNat)) →
    ∃ t u, exec i s = .next t ∧ exec j t = .next u ∧
      (holds → u = { t with ip := BitVec.ofInt 64 (t.ip.toNat + 4 * o.toInt) }) ∧
      (¬ holds → u = { t with ip := t.nextIp })

/-! ### Logic and shifts -/

/-- R120, R121, R122, R129: andq, orq, notq bit by bit, with ZF alone written. -/
def Obligations.BitwiseLogic : Prop :=
  ∀ (x y z : Byte) (s : State),
    decodeFields 0x51 x y z = some (.andq x y z) ∧ decodeFields 0x50 x y z = some (.orq x y z) ∧
    decodeFields 0x5E x y z = some (.notq x y) ∧
    ∀ (i : Instr) (d : Reg) (bit : Nat → Bool),
      (i = .andq x y z ∧ d = z ∧ (bit = fun k => (s.readReg x).getLsbD k && (s.readReg y).getLsbD k) ∨
        i = .orq x y z ∧ d = z ∧ (bit = fun k => (s.readReg x).getLsbD k || (s.readReg y).getLsbD k) ∨
        i = .notq x y ∧ d = y ∧ (bit = fun k => !(s.readReg x).getLsbD k)) →
      ∃ (t : State) (r : Word), exec i s = .next t ∧ (∀ k, k < 64 → r.getLsbD k = bit k) ∧ t.Received d r ∧
        (t.flags.zf = true ↔ ∀ k, k < 64 → bit k = false) ∧
        t.flags.cf = s.flags.cf ∧ t.flags.of = s.flags.of ∧ t.flags.sf = s.flags.sf ∧
        t.ip = s.nextIp ∧ s.OnlyRegs t [d]

/-- R123, R124, R130: shlq and its alias salq, both forms, for every count; CF is the last bit shifted out. -/
def Obligations.ShiftLeft : Prop :=
  ∀ (x y z : Byte) (s : State),
    decodeFields 0x52 x y z = some (.shlqReg x y z) ∧ decodeFields 0x5A x y z = some (.shlqImm x y z) ∧
    ∀ (i : Instr) (n : Nat),
      ((i = .shlqReg x y z ∨ i = .salqReg x y z) ∧ n = (s.readReg x).toNat ∨
        (i = .shlqImm x y z ∨ i = .salqImm x y z) ∧ n = x.toNat) →
      ∃ t, exec i s = .next t ∧
        t.Received z (BitVec.ofNat 64 (2 ^ n * (s.readReg y).toNat)) ∧
        (64 ≤ n → t.flags.cf = false) ∧
        (n < 64 → (t.flags.cf = true ↔ (s.readReg y).toNat / 2 ^ (64 - n) % 2 = 1)) ∧
        (s.platform.silentFlags = .unchanged →
          t.flags.zf = s.flags.zf ∧ t.flags.of = s.flags.of ∧ t.flags.sf = s.flags.sf ∧ t.draws = s.draws) ∧
        t.ip = s.nextIp ∧ s.RegsKept t [z] ∧ s.BytesKept t ∧ s.WorldKept t

/-- R125 to R128, R130: shrq and sarq, both forms, for every count; no flag is named. -/
def Obligations.RightShifts : Prop :=
  ∀ (x y z : Byte) (s : State),
    decodeFields 0x53 x y z = some (.shrqReg x y z) ∧ decodeFields 0x5B x y z = some (.shrqImm x y z) ∧
    decodeFields 0x54 x y z = some (.sarqReg x y z) ∧ decodeFields 0x5C x y z = some (.sarqImm x y z) ∧
    ∀ (i : Instr) (r : Word),
      (i = .shrqReg x y z ∧ r = BitVec.ofNat 64 ((s.readReg y).toNat / 2 ^ (s.readReg x).toNat) ∨
        i = .shrqImm x y z ∧ r = BitVec.ofNat 64 ((s.readReg y).toNat / 2 ^ x.toNat) ∨
        i = .sarqReg x y z ∧ r = BitVec.ofInt 64 ((s.readReg y).toInt / (2 ^ (s.readReg x).toNat : Nat)) ∨
        i = .sarqImm x y z ∧ r = BitVec.ofInt 64 ((s.readReg y).toInt / (2 ^ x.toNat : Nat))) →
      ∃ t, exec i s = .next t ∧ t.Received z r ∧ s.SilentKept t ∧ t.ip = s.nextIp ∧ s.RegsKept t [z] ∧
        s.BytesKept t ∧ s.WorldKept t

/-! ### Load immediate -/

/-- R185, R186: ldswq and ldzwq. -/
def Obligations.LoadImmediateWord : Prop :=
  ∀ (x y z : Byte) (s : State) (xy : Imm16), xy = x ++ y →
    decodeFields 0x57 x y z = some (.ldswq xy z) ∧ decodeFields 0x56 x y z = some (.ldzwq xy z) ∧
    ∀ (i : Instr) (v : Int),
      (i = .ldswq xy z ∧ v = xy.toInt ∨ i = .ldzwq xy z ∧ v = (xy.toNat : Int)) →
      ∃ t, exec i s = .next t ∧ t.Received z (BitVec.ofInt 64 v) ∧ (t.flags.zf = true ↔ xy = 0) ∧
        t.flags.cf = s.flags.cf ∧ t.flags.of = s.flags.of ∧ t.flags.sf = s.flags.sf ∧
        t.ip = s.nextIp ∧ s.OnlyRegs t [z]

/-- R187: shldwq. That CF is old bit 48, the last bit shifted out, is a choice: the source does not settle it,
R187 says `this spec takes that reading` (D22, C11), and the model follows it (log entry 23). -/
def Obligations.ShiftInWord : Prop :=
  ∀ (x y z : Byte) (s : State) (xy : Imm16), xy = x ++ y →
    decodeFields 0x5D x y z = some (.shldwq xy z) ∧
    ∃ t, exec (.shldwq xy z) s = .next t ∧
      t.Received z (BitVec.ofNat 64 ((s.readReg z).toNat * 2 ^ 16 + xy.toNat)) ∧
      (t.flags.cf = true ↔ (s.readReg z).toNat / 2 ^ 48 % 2 = 1) ∧
      (t.flags.zf = true ↔ ((s.readReg z).toNat * 2 ^ 16 + xy.toNat) % 2 ^ 64 = 0) ∧
      t.flags.of = s.flags.of ∧ t.flags.sf = s.flags.sf ∧ t.ip = s.nextIp ∧ s.OnlyRegs t [z]

/-- R188: the four-instruction sequence loads any 64-bit constant, with CF = 0 and ZF saying whether it is 0. -/
def Obligations.LongConstant : Prop :=
  ∀ (c3 c2 c1 c0 : Imm16) (c : Word) (z : Reg) (s : State), c = c3 ++ c2 ++ c1 ++ c0 → z ≠ 0 →
    ∃ t1 t2 t3 t4, exec (.ldzwq c3 z) s = .next t1 ∧ exec (.shldwq c2 z) t1 = .next t2 ∧
      exec (.shldwq c1 z) t2 = .next t3 ∧ exec (.shldwq c0 z) t3 = .next t4 ∧
      t4.readReg z = c ∧ t4.flags.cf = false ∧ (t4.flags.zf = true ↔ c = 0) ∧ s.OnlyRegs t4 [z]

/-! ### Devices, halt and trap -/

/-- R140: nop changes nothing but `%ip`. -/
def Obligations.NopAdvances : Prop :=
  ∀ (x y z : Byte) (s : State), decodeFields 0xFF x y z = some .nop ∧
    exec .nop s = .next { s with ip := s.nextIp }

/-- R142: getc with a byte at hand, under each value of `GETC_UPPER`; under `any` nothing is said of bits
63:8. -/
def Obligations.GetcConsumesByte : Prop :=
  ∀ (x y z : Byte) (s : State) (c : Byte) (rest : List Byte), s.input = c :: rest →
    decodeFields 0x60 x y z = some (.getc x) ∧
    ∃ t, exec (.getc x) s = .next t ∧ t.input = rest ∧
      (x ≠ 0 → (t.readReg x).toNat % 2 ^ 8 = c.toNat) ∧
      (s.platform.getcUpper = .zero → t.Received x (BitVec.ofNat 64 c.toNat)) ∧
      (s.platform.getcUpper = .keep → x ≠ 0 →
        (t.readReg x).toNat / 2 ^ 8 = (s.readReg x).toNat / 2 ^ 8) ∧
      (s.platform.getcUpper ≠ .any → t.draws = s.draws) ∧
      t.ip = s.nextIp ∧ t.flags = s.flags ∧ s.RegsKept t [x] ∧ s.BytesKept t ∧ t.status = s.status ∧
      t.output = s.output ∧ t.hostLog = s.hostLog ∧ t.hostReplies = s.hostReplies ∧ t.platform = s.platform

/-- R141 with log entry 10: getc without a byte at hand waits, which changes nothing; once the environment
supplies bytes the same getc consumes the first of them. -/
def Obligations.GetcWaits : Prop :=
  ∀ (x : Reg) (s : State), s.input = [] →
    exec (.getc x) s = .next s ∧
    ∀ (c : Byte) (rest : List Byte),
      ∃ t, exec (.getc x) (s.supplyInput (c :: rest)) = .next t ∧ t.input = rest ∧ t.ip = s.nextIp

/-- R143, R147: putc, both forms, appends one byte to the output stream. -/
def Obligations.PutcAppends : Prop :=
  ∀ (x y z : Byte) (s : State),
    decodeFields 0x61 x y z = some (.putcReg x) ∧ decodeFields 0x69 x y z = some (.putcImm x) ∧
    ∀ (i : Instr) (b : Byte),
      (i = .putcReg x ∧ b = BitVec.ofNat 8 ((s.readReg x).toNat % 2 ^ 8) ∨ i = .putcImm x ∧ b = x) →
      exec i s = .next { s with output := s.output ++ [b], ip := s.nextIp }

/-- R144, R145, R146, R153: halt, both forms: the exit code is the low byte, `%ip` is not advanced, and the
code byte goes to `LAST_CELL` if the installation names one; no step follows. -/
def Obligations.HaltStops : Prop :=
  ∀ (x y z : Byte) (s : State),
    decodeFields 0x01 x y z = some (.haltReg x) ∧ decodeFields 0x09 x y z = some (.haltImm x) ∧
    ∀ (i : Instr) (c : Byte), s.mem.wf = true →
      (i = .haltReg x ∧ c = BitVec.ofNat 8 ((s.readReg x).toNat % 2 ^ 8) ∨ i = .haltImm x ∧ c = x) →
      ∃ t, exec i s = .next t ∧ t.status = .halted c ∧ t.ip = s.ip ∧ t.flags = s.flags ∧ s.RegsKept t [] ∧
        (s.platform.lastCell = none → s.BytesKept t) ∧
        (∀ l, s.platform.lastCell = some l → t.mem.read l.toNat = c ∧ s.BytesKeptOutside t l 1) ∧
        t.input = s.input ∧ t.output = s.output ∧ t.hostLog = s.hostLog ∧ t.hostReplies = s.hostReplies ∧
        t.platform = s.platform ∧ t.draws = s.draws ∧ ∀ u, step t ≠ .next u

/-- R151: the parameter block of traps 0 and 1: its three big-endian fields, and the faults of a misaligned
or absent block, which trap raises before anything else happens. A block that wraps past 2^64-1 is read at
addresses mod 2^64 where the platform admits it (R53). Two clauses are the model's choices: that fd is
a signed 32-bit value is PRESUMED (R151 marks it as general knowledge, G4; log entry 45), and that an absent byte
anywhere in the block is reported at P is log entry 19. -/
def Obligations.TrapBlockLayout : Prop :=
  ∀ (x y z : Byte) (s : State) (p : Word), p = s.readReg y →
    (p.toNat % 8 = 0 → s.platform.admits p 24 = true →
      ∃ b, s.paramBlock p = .ok b ∧ b.fd = signedValue 32 (s.memValue p 4) ∧
        b.buf.toNat = s.memValue (p + 8) 8 ∧ b.nbyte = s.memValue (p + 16) 8) ∧
    ((s.readReg x).toNat < 2 → p.toNat % 8 ≠ 0 →
      ∃ t, exec (.trap x y z) s = .next t ∧ s.StoppedBy t (.alignmentFault p)) ∧
    ((s.readReg x).toNat < 2 → p.toNat % 8 = 0 → s.platform.admits p 24 = false →
      ∃ t, exec (.trap x y z) s = .next t ∧ s.StoppedBy t (.memoryAccessFault p))

/-- R149: trap 0, read. `r` is the host's answer: the one put ready, else the oracle's. The queue `hostReplies` of
answers (log entry 16) and the record `hostLog` of exchanges (log entry 17) are the model's own, and the clauses
on them are its choices. -/
def Obligations.TrapReadTransfers : Prop :=
  ∀ (x y z : Byte) (s : State) (b : ParamBlock) (r : ReadReply),
    (s.readReg x).toNat = 0 → s.paramBlock (s.readReg y) = .ok b → r = s.readReply b.fd b.nbyte →
    (s.mem.wf = true → s.BufferAdmitted b.buf b.nbyte →
      ∃ t, exec (.trap x y z) s = .next t ∧
        (∀ bs, r = .ok bs → bs.length ≤ b.nbyte ∧ t.Received z (BitVec.ofNat 64 bs.length) ∧
          (∀ (j : Nat) (h : j < bs.length), t.mem.read (b.buf + BitVec.ofNat 64 j).toNat = bs[j]) ∧
          s.BytesKeptOutside t b.buf bs.length) ∧
        (∀ e h, r = .err e h → t.Received z (BitVec.ofInt 64 (-(e : Int))) ∧ s.BytesKept t) ∧
        (∀ bs q, s.hostReplies = .read (.ok bs) :: q → bs.length ≤ b.nbyte →
          r = .ok bs ∧ t.hostReplies = q) ∧
        t.hostLog = s.hostLog ++ [.read b.fd b.nbyte r] ∧ t.ip = s.nextIp ∧ t.flags = s.flags ∧
        s.RegsKept t [z] ∧ t.status = s.status ∧ t.input = s.input ∧ t.output = s.output ∧
        t.platform = s.platform ∧ t.draws = s.draws) ∧
    (∀ n, n < b.nbyte → s.BufferAdmitted b.buf n →
      s.platform.admits (b.buf + BitVec.ofNat 64 n) 1 = false →
      ∃ t, exec (.trap x y z) s = .next t ∧
        s.StoppedBy t (.memoryAccessFault (b.buf + BitVec.ofNat 64 n)))

/-- R150: trap 1, write. `r` is the host's answer to the bytes of the buffer. The queue `hostReplies` of answers
(log entry 16) and the record `hostLog` of exchanges (log entry 17) are the model's own, and the clauses on them
are its choices. -/
def Obligations.TrapWriteTransfers : Prop :=
  ∀ (x y z : Byte) (s : State) (b : ParamBlock) (data : List Byte) (r : WriteReply),
    (s.readReg x).toNat = 1 → s.paramBlock (s.readReg y) = .ok b →
    (data = (List.range b.nbyte).map fun j => s.mem.read (b.buf + BitVec.ofNat 64 j).toNat) →
    r = s.writeReply b.fd data →
    (s.BufferAdmitted b.buf b.nbyte →
      ∃ t, exec (.trap x y z) s = .next t ∧
        (∀ k, r = .ok k → k ≤ b.nbyte ∧ t.Received z (BitVec.ofNat 64 k)) ∧
        (∀ e h, r = .err e h → t.Received z (BitVec.ofInt 64 (-(e : Int)))) ∧
        (∀ k q, s.hostReplies = .write (.ok k) :: q → k ≤ b.nbyte → r = .ok k ∧ t.hostReplies = q) ∧
        t.hostLog = s.hostLog ++ [.write b.fd data r] ∧ t.mem = s.mem ∧ t.ip = s.nextIp ∧
        t.flags = s.flags ∧ s.RegsKept t [z] ∧ t.status = s.status ∧ t.input = s.input ∧
        t.output = s.output ∧ t.platform = s.platform ∧ t.draws = s.draws) ∧
    (∀ n, n < b.nbyte → s.BufferAdmitted b.buf n →
      s.platform.admits (b.buf + BitVec.ofNat 64 n) 1 = false →
      ∃ t, exec (.trap x y z) s = .next t ∧
        s.StoppedBy t (.memoryAccessFault (b.buf + BitVec.ofNat 64 n)))

/-- R308: a trap number other than 0 and 1 that the platform has no handler for, whatever the block. -/
def Obligations.TrapUnknownNumber : Prop :=
  (∀ x y z : Byte, decodeFields 0x02 x y z = some (.trap x y z)) ∧
  ∀ (x y z : Byte) (s : State) (n : Word), n = s.readReg x → 2 ≤ n.toNat → n ∉ s.platform.extraTraps →
    ∃ t, exec (.trap x y z) s = .next t ∧ s.StoppedBy t (.unknownTrap n) ∧
      RaisedFault.code (.unknownTrap n) = 7

/-- The model's reading of R155 and R53 (log entry 18): a handler that the platform supplies answers the bytes it
reads, the bytes it writes, in order, and the value it returns. Where all of these bytes exist, the instruction
completes, and a byte keeps the last value written to it: the one of a pair `(a, v)` that no later pair writes to.
Else the trap raises MemoryAccessFault of the first absent byte, reads before writes, and changes nothing. The
record `hostLog` is the model's own (log entry 17). -/
def Obligations.TrapPlatformHandler : Prop :=
  ∀ (x y z : Byte) (s : State) (n p : Word) (r : TrapReply),
    n = s.readReg x → p = s.readReg y → 2 ≤ n.toNat → n ∈ s.platform.extraTraps → r = s.otherReply n p →
    ((∀ a ∈ r.accesses, s.platform.admits a 1 = true) →
      ∃ t, exec (.trap x y z) s = .next t ∧ t.Received z r.value ∧
        (∀ b : Nat, (∀ c ∈ r.writes, b ≠ c.1.toNat) → t.mem.read b = s.mem.read b) ∧
        (s.mem.wf = true → ∀ cs a v ds, r.writes = cs ++ (a, v) :: ds → (∀ c ∈ ds, a ≠ c.1) →
          t.mem.read a.toNat = v) ∧
        t.hostLog = s.hostLog ++ [.other n p r] ∧ t.ip = s.nextIp ∧ t.flags = s.flags ∧ s.RegsKept t [z] ∧
        t.status = s.status ∧ t.input = s.input ∧ t.output = s.output ∧ t.platform = s.platform ∧
        t.draws = s.draws) ∧
    (∀ before a after, r.accesses = before ++ a :: after → (∀ b ∈ before, s.platform.admits b 1 = true) →
      s.platform.admits a 1 = false →
      ∃ t, exec (.trap x y z) s = .next t ∧ s.StoppedBy t (.memoryAccessFault a))

/-! ### Jumps -/

/-- R161: jmp, register form: the target is read before the return address is written. -/
def Obligations.JmpRegisterLinks : Prop :=
  ∀ (x y z : Byte) (s : State), decodeFields 0x40 x y z = some (.jmpReg x y) ∧
    ∃ t, exec (.jmpReg x y) s = .next t ∧ t.ip = s.readReg x ∧ t.Received y s.nextIp ∧ t.flags = s.flags ∧
      s.OnlyRegs t [y]

/-- R160, R162: jmp, relative form, from its own address, no link. -/
def Obligations.JmpRelative : Prop :=
  ∀ (x y z : Byte) (s : State) (o : Imm24), o = x ++ y ++ z →
    decodeFields 0x41 x y z = some (.jmpRel o) ∧
    exec (.jmpRel o) s = .next { s with ip := BitVec.ofInt 64 (s.ip.toNat + 4 * o.toInt) }

/-- R160, R163 to R173: the ten conditional jumps and their ten alias spellings. -/
def Obligations.ConditionalJumps : Prop :=
  ∀ (x y z : Byte) (s : State) (o : Imm24), o = x ++ y ++ z →
    (decodeFields 0x42 x y z = some (.je o) ∧ decodeFields 0x43 x y z = some (.jne o) ∧
      decodeFields 0x44 x y z = some (.jl o) ∧ decodeFields 0x45 x y z = some (.jge o) ∧
      decodeFields 0x46 x y z = some (.jle o) ∧ decodeFields 0x47 x y z = some (.jg o) ∧
      decodeFields 0x48 x y z = some (.jb o) ∧ decodeFields 0x49 x y z = some (.jae o) ∧
      decodeFields 0x4A x y z = some (.jbe o) ∧ decodeFields 0x4B x y z = some (.ja o)) ∧
    ∀ (i : Instr) (taken : Prop),
      ((i = .je o ∨ i = .jz o) ∧ (taken ↔ s.flags.zf = true) ∨
        (i = .jne o ∨ i = .jnz o) ∧ (taken ↔ s.flags.zf = false) ∨
        (i = .jl o ∨ i = .jnge o) ∧ (taken ↔ s.flags.sf ≠ s.flags.of) ∨
        (i = .jge o ∨ i = .jnl o) ∧ (taken ↔ s.flags.sf = s.flags.of) ∨
        (i = .jle o ∨ i = .jng o) ∧ (taken ↔ s.flags.zf = true ∨ s.flags.sf ≠ s.flags.of) ∨
        (i = .jg o ∨ i = .jnle o) ∧ (taken ↔ s.flags.zf = false ∧ s.flags.sf = s.flags.of) ∨
        (i = .jb o ∨ i = .jnae o) ∧ (taken ↔ s.flags.cf = true) ∨
        (i = .jae o ∨ i = .jnb o) ∧ (taken ↔ s.flags.cf = false) ∨
        (i = .jbe o ∨ i = .jna o) ∧ (taken ↔ s.flags.cf = true ∨ s.flags.zf = true) ∨
        (i = .ja o ∨ i = .jnbe o) ∧ (taken ↔ s.flags.cf = false ∧ s.flags.zf = false)) →
      ∃ t, exec i s = .next t ∧
        (taken → t = { s with ip := BitVec.ofInt 64 (s.ip.toNat + 4 * o.toInt) }) ∧
        (¬ taken → t = { s with ip := s.nextIp })

/-! ### Loads and stores -/

/-- R231 to R235: movq as a load, in its five address forms. -/
def Obligations.LoadQuad : Prop :=
  ∀ (x y z : Byte) (s : State),
    (decodeFields 0x10 x y z = some (.movqLoad x y z) ∧ decodeFields 0x18 x y z = some (.movqLoadDisp x y z) ∧
      decodeFields 0x80 x y z = some (.movqLoadScaled2 x y z) ∧
      decodeFields 0xA0 x y z = some (.movqLoadScaled4 x y z) ∧
      decodeFields 0xC0 x y z = some (.movqLoadScaled8 x y z)) ∧
    ∀ (i : Instr) (a : Word),
      (i = .movqLoad x y z ∧ a = scaledAddress 1 (s.readReg x) (s.readReg y) ∨
        i = .movqLoadDisp x y z ∧ a = displacedAddress x (s.readReg y) ∨
        i = .movqLoadScaled2 x y z ∧ a = scaledAddress 2 (s.readReg x) (s.readReg y) ∨
        i = .movqLoadScaled4 x y z ∧ a = scaledAddress 4 (s.readReg x) (s.readReg y) ∨
        i = .movqLoadScaled8 x y z ∧ a = scaledAddress 8 (s.readReg x) (s.readReg y)) →
      s.Loads i a 8 z (s.memValue a 8) ∧ s.AlignmentFaults i a 8 ∧ s.AdmissionFaults i a 8

/-- R236 to R240, R251 to R255: movzlq and movslq, in their five address forms. -/
def Obligations.LoadLong : Prop :=
  ∀ (x y z : Byte) (s : State),
    (decodeFields 0x11 x y z = some (.movzlq x y z) ∧ decodeFields 0x19 x y z = some (.movzlqDisp x y z) ∧
      decodeFields 0x81 x y z = some (.movzlqScaled2 x y z) ∧
      decodeFields 0xA1 x y z = some (.movzlqScaled4 x y z) ∧
      decodeFields 0xC1 x y z = some (.movzlqScaled8 x y z) ∧
      decodeFields 0x15 x y z = some (.movslq x y z) ∧ decodeFields 0x1D x y z = some (.movslqDisp x y z) ∧
      decodeFields 0x85 x y z = some (.movslqScaled2 x y z) ∧
      decodeFields 0xA5 x y z = some (.movslqScaled4 x y z) ∧
      decodeFields 0xC5 x y z = some (.movslqScaled8 x y z)) ∧
    ∀ (i j : Instr) (a : Word),
      (i = .movzlq x y z ∧ j = .movslq x y z ∧ a = scaledAddress 1 (s.readReg x) (s.readReg y) ∨
        i = .movzlqDisp x y z ∧ j = .movslqDisp x y z ∧ a = displacedAddress x (s.readReg y) ∨
        i = .movzlqScaled2 x y z ∧ j = .movslqScaled2 x y z ∧
          a = scaledAddress 2 (s.readReg x) (s.readReg y) ∨
        i = .movzlqScaled4 x y z ∧ j = .movslqScaled4 x y z ∧
          a = scaledAddress 4 (s.readReg x) (s.readReg y) ∨
        i = .movzlqScaled8 x y z ∧ j = .movslqScaled8 x y z ∧
          a = scaledAddress 8 (s.readReg x) (s.readReg y)) →
      (s.Loads i a 4 z (s.memValue a 4) ∧ s.AlignmentFaults i a 4 ∧ s.AdmissionFaults i a 4) ∧
      s.Loads j a 4 z (signedValue 32 (s.memValue a 4)) ∧ s.AlignmentFaults j a 4 ∧ s.AdmissionFaults j a 4

/-- R241 to R245, R256 to R260: movzwq and movswq, in their five address forms. -/
def Obligations.LoadWord : Prop :=
  ∀ (x y z : Byte) (s : State),
    (decodeFields 0x12 x y z = some (.movzwq x y z) ∧ decodeFields 0x1A x y z = some (.movzwqDisp x y z) ∧
      decodeFields 0x82 x y z = some (.movzwqScaled2 x y z) ∧
      decodeFields 0xA2 x y z = some (.movzwqScaled4 x y z) ∧
      decodeFields 0xC2 x y z = some (.movzwqScaled8 x y z) ∧
      decodeFields 0x16 x y z = some (.movswq x y z) ∧ decodeFields 0x1E x y z = some (.movswqDisp x y z) ∧
      decodeFields 0x86 x y z = some (.movswqScaled2 x y z) ∧
      decodeFields 0xA6 x y z = some (.movswqScaled4 x y z) ∧
      decodeFields 0xC6 x y z = some (.movswqScaled8 x y z)) ∧
    ∀ (i j : Instr) (a : Word),
      (i = .movzwq x y z ∧ j = .movswq x y z ∧ a = scaledAddress 1 (s.readReg x) (s.readReg y) ∨
        i = .movzwqDisp x y z ∧ j = .movswqDisp x y z ∧ a = displacedAddress x (s.readReg y) ∨
        i = .movzwqScaled2 x y z ∧ j = .movswqScaled2 x y z ∧
          a = scaledAddress 2 (s.readReg x) (s.readReg y) ∨
        i = .movzwqScaled4 x y z ∧ j = .movswqScaled4 x y z ∧
          a = scaledAddress 4 (s.readReg x) (s.readReg y) ∨
        i = .movzwqScaled8 x y z ∧ j = .movswqScaled8 x y z ∧
          a = scaledAddress 8 (s.readReg x) (s.readReg y)) →
      (s.Loads i a 2 z (s.memValue a 2) ∧ s.AlignmentFaults i a 2 ∧ s.AdmissionFaults i a 2) ∧
      s.Loads j a 2 z (signedValue 16 (s.memValue a 2)) ∧ s.AlignmentFaults j a 2 ∧ s.AdmissionFaults j a 2

/-- R246 to R250, R261 to R265: movzbq and movsbq, in their five address forms; no alignment is asked. -/
def Obligations.LoadByte : Prop :=
  ∀ (x y z : Byte) (s : State),
    (decodeFields 0x13 x y z = some (.movzbq x y z) ∧ decodeFields 0x1B x y z = some (.movzbqDisp x y z) ∧
      decodeFields 0x83 x y z = some (.movzbqScaled2 x y z) ∧
      decodeFields 0xA3 x y z = some (.movzbqScaled4 x y z) ∧
      decodeFields 0xC3 x y z = some (.movzbqScaled8 x y z) ∧
      decodeFields 0x17 x y z = some (.movsbq x y z) ∧ decodeFields 0x1F x y z = some (.movsbqDisp x y z) ∧
      decodeFields 0x87 x y z = some (.movsbqScaled2 x y z) ∧
      decodeFields 0xA7 x y z = some (.movsbqScaled4 x y z) ∧
      decodeFields 0xC7 x y z = some (.movsbqScaled8 x y z)) ∧
    ∀ (i j : Instr) (a : Word),
      (i = .movzbq x y z ∧ j = .movsbq x y z ∧ a = scaledAddress 1 (s.readReg x) (s.readReg y) ∨
        i = .movzbqDisp x y z ∧ j = .movsbqDisp x y z ∧ a = displacedAddress x (s.readReg y) ∨
        i = .movzbqScaled2 x y z ∧ j = .movsbqScaled2 x y z ∧
          a = scaledAddress 2 (s.readReg x) (s.readReg y) ∨
        i = .movzbqScaled4 x y z ∧ j = .movsbqScaled4 x y z ∧
          a = scaledAddress 4 (s.readReg x) (s.readReg y) ∨
        i = .movzbqScaled8 x y z ∧ j = .movsbqScaled8 x y z ∧
          a = scaledAddress 8 (s.readReg x) (s.readReg y)) →
      (s.Loads i a 1 z (s.memValue a 1) ∧ s.AdmissionFaults i a 1) ∧
      s.Loads j a 1 z (signedValue 8 (s.memValue a 1)) ∧ s.AdmissionFaults j a 1

/-- R201 to R210: movq as a store and movl, in their five address forms. -/
def Obligations.StoreQuadAndLong : Prop :=
  ∀ (x y z : Byte) (s : State),
    (decodeFields 0x20 x y z = some (.movqStore x y z) ∧
      decodeFields 0x28 x y z = some (.movqStoreDisp x y z) ∧
      decodeFields 0x90 x y z = some (.movqStoreScaled2 x y z) ∧
      decodeFields 0xB0 x y z = some (.movqStoreScaled4 x y z) ∧
      decodeFields 0xD0 x y z = some (.movqStoreScaled8 x y z) ∧
      decodeFields 0x21 x y z = some (.movl x y z) ∧ decodeFields 0x29 x y z = some (.movlDisp x y z) ∧
      decodeFields 0x91 x y z = some (.movlScaled2 x y z) ∧
      decodeFields 0xB1 x y z = some (.movlScaled4 x y z) ∧
      decodeFields 0xD1 x y z = some (.movlScaled8 x y z)) ∧
    ∀ (i j : Instr) (a : Word),
      (i = .movqStore x y z ∧ j = .movl x y z ∧ a = scaledAddress 1 (s.readReg y) (s.readReg z) ∨
        i = .movqStoreDisp x y z ∧ j = .movlDisp x y z ∧ a = displacedAddress y (s.readReg z) ∨
        i = .movqStoreScaled2 x y z ∧ j = .movlScaled2 x y z ∧
          a = scaledAddress 2 (s.readReg y) (s.readReg z) ∨
        i = .movqStoreScaled4 x y z ∧ j = .movlScaled4 x y z ∧
          a = scaledAddress 4 (s.readReg y) (s.readReg z) ∨
        i = .movqStoreScaled8 x y z ∧ j = .movlScaled8 x y z ∧
          a = scaledAddress 8 (s.readReg y) (s.readReg z)) →
      (s.Stores i a 8 (s.readReg x) ∧ s.AlignmentFaults i a 8 ∧ s.AdmissionFaults i a 8) ∧
      s.Stores j a 4 (s.readReg x) ∧ s.AlignmentFaults j a 4 ∧ s.AdmissionFaults j a 4

/-- R211 to R220: movw and movb, in their five address forms; movb asks no alignment. -/
def Obligations.StoreWordAndByte : Prop :=
  ∀ (x y z : Byte) (s : State),
    (decodeFields 0x22 x y z = some (.movw x y z) ∧ decodeFields 0x2A x y z = some (.movwDisp x y z) ∧
      decodeFields 0x92 x y z = some (.movwScaled2 x y z) ∧
      decodeFields 0xB2 x y z = some (.movwScaled4 x y z) ∧
      decodeFields 0xD2 x y z = some (.movwScaled8 x y z) ∧
      decodeFields 0x23 x y z = some (.movb x y z) ∧ decodeFields 0x2B x y z = some (.movbDisp x y z) ∧
      decodeFields 0x93 x y z = some (.movbScaled2 x y z) ∧
      decodeFields 0xB3 x y z = some (.movbScaled4 x y z) ∧
      decodeFields 0xD3 x y z = some (.movbScaled8 x y z)) ∧
    ∀ (i j : Instr) (a : Word),
      (i = .movw x y z ∧ j = .movb x y z ∧ a = scaledAddress 1 (s.readReg y) (s.readReg z) ∨
        i = .movwDisp x y z ∧ j = .movbDisp x y z ∧ a = displacedAddress y (s.readReg z) ∨
        i = .movwScaled2 x y z ∧ j = .movbScaled2 x y z ∧ a = scaledAddress 2 (s.readReg y) (s.readReg z) ∨
        i = .movwScaled4 x y z ∧ j = .movbScaled4 x y z ∧ a = scaledAddress 4 (s.readReg y) (s.readReg z) ∨
        i = .movwScaled8 x y z ∧ j = .movbScaled8 x y z ∧
          a = scaledAddress 8 (s.readReg y) (s.readReg z)) →
      (s.Stores i a 2 (s.readReg x) ∧ s.AlignmentFaults i a 2 ∧ s.AdmissionFaults i a 2) ∧
      s.Stores j a 1 (s.readReg x) ∧ s.AdmissionFaults j a 1

/-- R42, R44: a quad stored by movq is read back by a movq load, and its low longword, word and byte by the
narrower loads at addresses 4, 6 and 7 further on. -/
def Obligations.StoreThenLoad : Prop :=
  ∀ (x y z : Byte) (s : State) (a : Word), s.mem.wf = true → z ≠ 0 →
    a = displacedAddress 0 (s.readReg y) → a.toNat % 8 = 0 → s.platform.admits a 8 = true →
    ∃ t, exec (.movqStoreDisp x 0 y) s = .next t ∧
      ∀ (i : Instr) (v : Nat),
        (i = .movqLoadDisp 0 y z ∧ v = (s.readReg x).toNat ∨
          i = .movzlqDisp 4 y z ∧ v = (s.readReg x).toNat % 2 ^ 32 ∨
          i = .movzwqDisp 6 y z ∧ v = (s.readReg x).toNat % 2 ^ 16 ∨
          i = .movzbqDisp 7 y z ∧ v = (s.readReg x).toNat % 2 ^ 8) →
        ∃ u, exec i t = .next u ∧ u.readReg z = BitVec.ofNat 64 v

/-- R57: a longword stored over the next instruction is what the next step executes. -/
def Obligations.StoreSeenByFetch : Prop :=
  ∀ (x y : Byte) (s : State) (i : Instr), s.mem.wf = true → s.CanFetch →
    s.readReg y = s.nextIp → s.platform.admits s.nextIp 4 = true → i.wellFormed = true →
    (s.readReg x).toNat % 2 ^ 32 = (encodeWord i).toNat →
    ∃ t, exec (.movlDisp x 0 y) s = .next t ∧ t.ip = s.nextIp ∧ step t = exec i t

/-- R47, R48, R49: what the two address functions that the statements about loads and stores name compute: the
sums of the source, reduced mod 2^64. With `%0` as offset or base the other operand alone remains. -/
def Obligations.AddressesFollowTheSums : Prop :=
  (∀ (k : Nat) (base offset : Word),
    (scaledAddress k base offset).toNat = (base.toNat + k * offset.toNat) % 2 ^ 64) ∧
  (∀ (d : Imm8) (base : Word),
    ((displacedAddress d base).toNat : Int) = ((base.toNat : Int) + d.toInt) % 2 ^ 64) ∧
  ∀ (s : State) (a : Word) (d : Imm8),
    scaledAddress 1 a (s.readReg 0) = a ∧ scaledAddress 1 (s.readReg 0) a = a ∧
    ((displacedAddress d (s.readReg 0)).toNat ≤ 127 ∨
      2 ^ 64 - 128 ≤ (displacedAddress d (s.readReg 0)).toNat)
end

