-- ==== Sys2Proof/Laws/Decode.lean ====
section
/-! SUPPORT. The rows of the opcode map one by one (spec/30_encoding.md R78), and the wide operands put
together from their bytes (R68 to R70). -/

namespace Sys2Proof

variable (x y z : Byte)

@[simp] theorem decodeFields_haltReg : decodeFields 0x01#8 x y z = some (.haltReg x) := rfl
@[simp] theorem decodeFields_trap : decodeFields 0x02#8 x y z = some (.trap x y z) := rfl
@[simp] theorem decodeFields_haltImm : decodeFields 0x09#8 x y z = some (.haltImm x) := rfl
@[simp] theorem decodeFields_getc : decodeFields 0x60#8 x y z = some (.getc x) := rfl
@[simp] theorem decodeFields_putcReg : decodeFields 0x61#8 x y z = some (.putcReg x) := rfl
@[simp] theorem decodeFields_putcImm : decodeFields 0x69#8 x y z = some (.putcImm x) := rfl
@[simp] theorem decodeFields_nop : decodeFields 0xFF#8 x y z = some .nop := rfl
@[simp] theorem decodeFields_addqReg : decodeFields 0x30#8 x y z = some (.addqReg x y z) := rfl
@[simp] theorem decodeFields_subqReg : decodeFields 0x31#8 x y z = some (.subqReg x y z) := rfl
@[simp] theorem decodeFields_mulqReg : decodeFields 0x32#8 x y z = some (.mulqReg x y z) := rfl
@[simp] theorem decodeFields_divqReg : decodeFields 0x33#8 x y z = some (.divqReg x y z) := rfl
@[simp] theorem decodeFields_imulqReg : decodeFields 0x34#8 x y z = some (.imulqReg x y z) := rfl
@[simp] theorem decodeFields_idivqReg : decodeFields 0x35#8 x y z = some (.idivqReg x y z) := rfl
@[simp] theorem decodeFields_addqImm : decodeFields 0x38#8 x y z = some (.addqImm x y z) := rfl
@[simp] theorem decodeFields_subqImm : decodeFields 0x39#8 x y z = some (.subqImm x y z) := rfl
@[simp] theorem decodeFields_mulqImm : decodeFields 0x3A#8 x y z = some (.mulqImm x y z) := rfl
@[simp] theorem decodeFields_divqImm : decodeFields 0x3B#8 x y z = some (.divqImm x y z) := rfl
@[simp] theorem decodeFields_imulqImm : decodeFields 0x3C#8 x y z = some (.imulqImm x y z) := rfl
@[simp] theorem decodeFields_idivqImm : decodeFields 0x3D#8 x y z = some (.idivqImm x y z) := rfl
@[simp] theorem decodeFields_orq : decodeFields 0x50#8 x y z = some (.orq x y z) := rfl
@[simp] theorem decodeFields_andq : decodeFields 0x51#8 x y z = some (.andq x y z) := rfl
@[simp] theorem decodeFields_shlqReg : decodeFields 0x52#8 x y z = some (.shlqReg x y z) := rfl
@[simp] theorem decodeFields_shrqReg : decodeFields 0x53#8 x y z = some (.shrqReg x y z) := rfl
@[simp] theorem decodeFields_sarqReg : decodeFields 0x54#8 x y z = some (.sarqReg x y z) := rfl
@[simp] theorem decodeFields_shlqImm : decodeFields 0x5A#8 x y z = some (.shlqImm x y z) := rfl
@[simp] theorem decodeFields_shrqImm : decodeFields 0x5B#8 x y z = some (.shrqImm x y z) := rfl
@[simp] theorem decodeFields_sarqImm : decodeFields 0x5C#8 x y z = some (.sarqImm x y z) := rfl
@[simp] theorem decodeFields_notq : decodeFields 0x5E#8 x y z = some (.notq x y) := rfl
@[simp] theorem decodeFields_ldzwq : decodeFields 0x56#8 x y z = some (.ldzwq (x ++ y) z) := rfl
@[simp] theorem decodeFields_ldswq : decodeFields 0x57#8 x y z = some (.ldswq (x ++ y) z) := rfl
@[simp] theorem decodeFields_shldwq : decodeFields 0x5D#8 x y z = some (.shldwq (x ++ y) z) := rfl
@[simp] theorem decodeFields_jmpReg : decodeFields 0x40#8 x y z = some (.jmpReg x y) := rfl
@[simp] theorem decodeFields_jmpRel : decodeFields 0x41#8 x y z = some (.jmpRel (x ++ y ++ z)) := rfl
@[simp] theorem decodeFields_je : decodeFields 0x42#8 x y z = some (.je (x ++ y ++ z)) := rfl
@[simp] theorem decodeFields_jne : decodeFields 0x43#8 x y z = some (.jne (x ++ y ++ z)) := rfl
@[simp] theorem decodeFields_jl : decodeFields 0x44#8 x y z = some (.jl (x ++ y ++ z)) := rfl
@[simp] theorem decodeFields_jge : decodeFields 0x45#8 x y z = some (.jge (x ++ y ++ z)) := rfl
@[simp] theorem decodeFields_jle : decodeFields 0x46#8 x y z = some (.jle (x ++ y ++ z)) := rfl
@[simp] theorem decodeFields_jg : decodeFields 0x47#8 x y z = some (.jg (x ++ y ++ z)) := rfl
@[simp] theorem decodeFields_jb : decodeFields 0x48#8 x y z = some (.jb (x ++ y ++ z)) := rfl
@[simp] theorem decodeFields_jae : decodeFields 0x49#8 x y z = some (.jae (x ++ y ++ z)) := rfl
@[simp] theorem decodeFields_jbe : decodeFields 0x4A#8 x y z = some (.jbe (x ++ y ++ z)) := rfl
@[simp] theorem decodeFields_ja : decodeFields 0x4B#8 x y z = some (.ja (x ++ y ++ z)) := rfl
@[simp] theorem decodeFields_movqLoad : decodeFields 0x10#8 x y z = some (.movqLoad x y z) := rfl
@[simp] theorem decodeFields_movzlq : decodeFields 0x11#8 x y z = some (.movzlq x y z) := rfl
@[simp] theorem decodeFields_movzwq : decodeFields 0x12#8 x y z = some (.movzwq x y z) := rfl
@[simp] theorem decodeFields_movzbq : decodeFields 0x13#8 x y z = some (.movzbq x y z) := rfl
@[simp] theorem decodeFields_movslq : decodeFields 0x15#8 x y z = some (.movslq x y z) := rfl
@[simp] theorem decodeFields_movswq : decodeFields 0x16#8 x y z = some (.movswq x y z) := rfl
@[simp] theorem decodeFields_movsbq : decodeFields 0x17#8 x y z = some (.movsbq x y z) := rfl
@[simp] theorem decodeFields_movqLoadDisp : decodeFields 0x18#8 x y z = some (.movqLoadDisp x y z) := rfl
@[simp] theorem decodeFields_movzlqDisp : decodeFields 0x19#8 x y z = some (.movzlqDisp x y z) := rfl
@[simp] theorem decodeFields_movzwqDisp : decodeFields 0x1A#8 x y z = some (.movzwqDisp x y z) := rfl
@[simp] theorem decodeFields_movzbqDisp : decodeFields 0x1B#8 x y z = some (.movzbqDisp x y z) := rfl
@[simp] theorem decodeFields_movslqDisp : decodeFields 0x1D#8 x y z = some (.movslqDisp x y z) := rfl
@[simp] theorem decodeFields_movswqDisp : decodeFields 0x1E#8 x y z = some (.movswqDisp x y z) := rfl
@[simp] theorem decodeFields_movsbqDisp : decodeFields 0x1F#8 x y z = some (.movsbqDisp x y z) := rfl
@[simp] theorem decodeFields_movqLoadScaled2 : decodeFields 0x80#8 x y z = some (.movqLoadScaled2 x y z) := rfl
@[simp] theorem decodeFields_movzlqScaled2 : decodeFields 0x81#8 x y z = some (.movzlqScaled2 x y z) := rfl
@[simp] theorem decodeFields_movzwqScaled2 : decodeFields 0x82#8 x y z = some (.movzwqScaled2 x y z) := rfl
@[simp] theorem decodeFields_movzbqScaled2 : decodeFields 0x83#8 x y z = some (.movzbqScaled2 x y z) := rfl
@[simp] theorem decodeFields_movslqScaled2 : decodeFields 0x85#8 x y z = some (.movslqScaled2 x y z) := rfl
@[simp] theorem decodeFields_movswqScaled2 : decodeFields 0x86#8 x y z = some (.movswqScaled2 x y z) := rfl
@[simp] theorem decodeFields_movsbqScaled2 : decodeFields 0x87#8 x y z = some (.movsbqScaled2 x y z) := rfl
@[simp] theorem decodeFields_movqLoadScaled4 : decodeFields 0xA0#8 x y z = some (.movqLoadScaled4 x y z) := rfl
@[simp] theorem decodeFields_movzlqScaled4 : decodeFields 0xA1#8 x y z = some (.movzlqScaled4 x y z) := rfl
@[simp] theorem decodeFields_movzwqScaled4 : decodeFields 0xA2#8 x y z = some (.movzwqScaled4 x y z) := rfl
@[simp] theorem decodeFields_movzbqScaled4 : decodeFields 0xA3#8 x y z = some (.movzbqScaled4 x y z) := rfl
@[simp] theorem decodeFields_movslqScaled4 : decodeFields 0xA5#8 x y z = some (.movslqScaled4 x y z) := rfl
@[simp] theorem decodeFields_movswqScaled4 : decodeFields 0xA6#8 x y z = some (.movswqScaled4 x y z) := rfl
@[simp] theorem decodeFields_movsbqScaled4 : decodeFields 0xA7#8 x y z = some (.movsbqScaled4 x y z) := rfl
@[simp] theorem decodeFields_movqLoadScaled8 : decodeFields 0xC0#8 x y z = some (.movqLoadScaled8 x y z) := rfl
@[simp] theorem decodeFields_movzlqScaled8 : decodeFields 0xC1#8 x y z = some (.movzlqScaled8 x y z) := rfl
@[simp] theorem decodeFields_movzwqScaled8 : decodeFields 0xC2#8 x y z = some (.movzwqScaled8 x y z) := rfl
@[simp] theorem decodeFields_movzbqScaled8 : decodeFields 0xC3#8 x y z = some (.movzbqScaled8 x y z) := rfl
@[simp] theorem decodeFields_movslqScaled8 : decodeFields 0xC5#8 x y z = some (.movslqScaled8 x y z) := rfl
@[simp] theorem decodeFields_movswqScaled8 : decodeFields 0xC6#8 x y z = some (.movswqScaled8 x y z) := rfl
@[simp] theorem decodeFields_movsbqScaled8 : decodeFields 0xC7#8 x y z = some (.movsbqScaled8 x y z) := rfl
@[simp] theorem decodeFields_movqStore : decodeFields 0x20#8 x y z = some (.movqStore x y z) := rfl
@[simp] theorem decodeFields_movl : decodeFields 0x21#8 x y z = some (.movl x y z) := rfl
@[simp] theorem decodeFields_movw : decodeFields 0x22#8 x y z = some (.movw x y z) := rfl
@[simp] theorem decodeFields_movb : decodeFields 0x23#8 x y z = some (.movb x y z) := rfl
@[simp] theorem decodeFields_movqStoreDisp : decodeFields 0x28#8 x y z = some (.movqStoreDisp x y z) := rfl
@[simp] theorem decodeFields_movlDisp : decodeFields 0x29#8 x y z = some (.movlDisp x y z) := rfl
@[simp] theorem decodeFields_movwDisp : decodeFields 0x2A#8 x y z = some (.movwDisp x y z) := rfl
@[simp] theorem decodeFields_movbDisp : decodeFields 0x2B#8 x y z = some (.movbDisp x y z) := rfl
@[simp] theorem decodeFields_movqStoreScaled2 : decodeFields 0x90#8 x y z = some (.movqStoreScaled2 x y z) := rfl
@[simp] theorem decodeFields_movlScaled2 : decodeFields 0x91#8 x y z = some (.movlScaled2 x y z) := rfl
@[simp] theorem decodeFields_movwScaled2 : decodeFields 0x92#8 x y z = some (.movwScaled2 x y z) := rfl
@[simp] theorem decodeFields_movbScaled2 : decodeFields 0x93#8 x y z = some (.movbScaled2 x y z) := rfl
@[simp] theorem decodeFields_movqStoreScaled4 : decodeFields 0xB0#8 x y z = some (.movqStoreScaled4 x y z) := rfl
@[simp] theorem decodeFields_movlScaled4 : decodeFields 0xB1#8 x y z = some (.movlScaled4 x y z) := rfl
@[simp] theorem decodeFields_movwScaled4 : decodeFields 0xB2#8 x y z = some (.movwScaled4 x y z) := rfl
@[simp] theorem decodeFields_movbScaled4 : decodeFields 0xB3#8 x y z = some (.movbScaled4 x y z) := rfl
@[simp] theorem decodeFields_movqStoreScaled8 : decodeFields 0xD0#8 x y z = some (.movqStoreScaled8 x y z) := rfl
@[simp] theorem decodeFields_movlScaled8 : decodeFields 0xD1#8 x y z = some (.movlScaled8 x y z) := rfl
@[simp] theorem decodeFields_movwScaled8 : decodeFields 0xD2#8 x y z = some (.movwScaled8 x y z) := rfl
@[simp] theorem decodeFields_movbScaled8 : decodeFields 0xD3#8 x y z = some (.movbScaled8 x y z) := rfl

/-- The 24-bit operand is the concatenation of its three bytes (R70). -/
theorem append_bytes24 (o : Imm24) :
    o.extractLsb' 16 8 ++ o.extractLsb' 8 8 ++ o.extractLsb' 0 8 = o := by
  apply BitVec.eq_of_getLsbD_eq
  intro k hk
  simp only [BitVec.getLsbD_append, BitVec.getLsbD_extractLsb']
  by_cases h1 : k < 8
  · simp [h1]
  · by_cases h2 : k - 8 < 8
    · simp [h1, h2]; congr 1; omega
    · have : k - 8 - 8 < 8 := by omega
      simp [h1, h2, this]; congr 1; omega

/-- The 16-bit operand is the concatenation of its two bytes (R68, R69). -/
theorem append_bytes16 (o : Imm16) : o.extractLsb' 8 8 ++ o.extractLsb' 0 8 = o := by
  apply BitVec.eq_of_getLsbD_eq
  intro k hk
  simp only [BitVec.getLsbD_append, BitVec.getLsbD_extractLsb']
  by_cases h1 : k < 8
  · simp [h1]
  · have : k - 8 < 8 := by omega
    simp [h1, this]; congr 1; omega

/-- The bytes of a concatenation of three (R60). -/
theorem extract_append24 :
    (x ++ y ++ z).extractLsb' 16 8 = x ∧ (x ++ y ++ z).extractLsb' 8 8 = y ∧
      (x ++ y ++ z).extractLsb' 0 8 = z := by
  refine ⟨?_, ?_, ?_⟩ <;> apply BitVec.eq_of_getLsbD_eq <;> intro k hk <;>
    rw [BitVec.getLsbD_extractLsb', BitVec.getLsbD_append, BitVec.getLsbD_append]
  · have h2 : ¬ (16 + k - 8 < 8) := by omega
    have h3 : 16 + k - 8 - 8 = k := by omega
    have h1 : ¬ (16 + k < 8) := by omega
    simp [hk, h1, h2, h3]
  · have h3 : 8 + k - 8 = k := by omega
    simp [hk, h3]
  · simp [hk]

/-- The bytes of a concatenation of two. -/
theorem extract_append16 : (x ++ y).extractLsb' 8 8 = x ∧ (x ++ y).extractLsb' 0 8 = y := by
  refine ⟨?_, ?_⟩ <;> apply BitVec.eq_of_getLsbD_eq <;> intro k hk <;>
    rw [BitVec.getLsbD_extractLsb', BitVec.getLsbD_append]
  · have h3 : 8 + k - 8 = k := by omega
    simp [hk, h3]
  · simp [hk]

/-- What decodes stands in a row of the map under its Op. -/
theorem row_of_decodeFields (op : Byte) (i : Instr) (h : decodeFields op x y z = some i) :
    ∃ r ∈ opcodeMap, r.op = op ∧ i = r.build x y z := by
  simp only [decodeFields, Option.map_eq_some_iff] at h
  obtain ⟨r, h1, h2⟩ := h
  exact ⟨r, List.mem_of_find?_eq_some h1, by simpa using List.find?_some h1, h2.symm⟩

/-- A byte has no instruction exactly when the map has no row for it. -/
theorem decodeFields_eq_none_iff (op : Byte) :
    decodeFields op x y z = none ↔ ∀ r ∈ opcodeMap, r.op ≠ op := by
  simp [decodeFields, Option.map_eq_none_iff, List.find?_eq_none]

/-- What decoding answers on four bytes and more. -/
theorem decode_cons (op : Byte) (rest : List Byte) (i : Instr) (h : decodeFields op x y z = some i) :
    decode (op :: x :: y :: z :: rest) = .ok (i, rest) := by
  simp [decode, h]

/-- What decoding answers where the opcode map has no row. -/
theorem decode_cons_none (op : Byte) (rest : List Byte) (h : decodeFields op x y z = none) :
    decode (op :: x :: y :: z :: rest) = .error (.illegalOpcode (op ++ x ++ y ++ z)) := by
  simp [decode, h]

end Sys2Proof
end

