-- ==== Sys2Proof/Laws/Exec.lean ====
section
/-! SUPPORT. exec of each instruction as the shared operation its meaning is, one equation per constructor, so
that no later proof unfolds exec. -/

namespace Sys2Proof.Machine

variable (s : State)

@[simp] theorem exec_haltReg (x : Reg) :
    exec (.haltReg x) s = .next (s.halt ((s.readReg x).extractLsb' 0 8)) := rfl
@[simp] theorem exec_trap (x y z : Reg) :
    exec (.trap x y z) s = execTrap x y z s := rfl
@[simp] theorem exec_haltImm (x : Imm8) :
    exec (.haltImm x) s = .next (s.halt x) := rfl
@[simp] theorem exec_movqLoad (x y z : Reg) :
    exec (.movqLoad x y z) s = load .quad .zero (scaledAddress 1 (s.readReg x) (s.readReg y)) z s := rfl
@[simp] theorem exec_movzlq (x y z : Reg) :
    exec (.movzlq x y z) s = load .long .zero (scaledAddress 1 (s.readReg x) (s.readReg y)) z s := rfl
@[simp] theorem exec_movzwq (x y z : Reg) :
    exec (.movzwq x y z) s = load .word .zero (scaledAddress 1 (s.readReg x) (s.readReg y)) z s := rfl
@[simp] theorem exec_movzbq (x y z : Reg) :
    exec (.movzbq x y z) s = load .byte .zero (scaledAddress 1 (s.readReg x) (s.readReg y)) z s := rfl
@[simp] theorem exec_movslq (x y z : Reg) :
    exec (.movslq x y z) s = load .long .sign (scaledAddress 1 (s.readReg x) (s.readReg y)) z s := rfl
@[simp] theorem exec_movswq (x y z : Reg) :
    exec (.movswq x y z) s = load .word .sign (scaledAddress 1 (s.readReg x) (s.readReg y)) z s := rfl
@[simp] theorem exec_movsbq (x y z : Reg) :
    exec (.movsbq x y z) s = load .byte .sign (scaledAddress 1 (s.readReg x) (s.readReg y)) z s := rfl
@[simp] theorem exec_movqLoadDisp (x : Imm8) (y z : Reg) :
    exec (.movqLoadDisp x y z) s = load .quad .zero (displacedAddress x (s.readReg y)) z s := rfl
@[simp] theorem exec_movzlqDisp (x : Imm8) (y z : Reg) :
    exec (.movzlqDisp x y z) s = load .long .zero (displacedAddress x (s.readReg y)) z s := rfl
@[simp] theorem exec_movzwqDisp (x : Imm8) (y z : Reg) :
    exec (.movzwqDisp x y z) s = load .word .zero (displacedAddress x (s.readReg y)) z s := rfl
@[simp] theorem exec_movzbqDisp (x : Imm8) (y z : Reg) :
    exec (.movzbqDisp x y z) s = load .byte .zero (displacedAddress x (s.readReg y)) z s := rfl
@[simp] theorem exec_movslqDisp (x : Imm8) (y z : Reg) :
    exec (.movslqDisp x y z) s = load .long .sign (displacedAddress x (s.readReg y)) z s := rfl
@[simp] theorem exec_movswqDisp (x : Imm8) (y z : Reg) :
    exec (.movswqDisp x y z) s = load .word .sign (displacedAddress x (s.readReg y)) z s := rfl
@[simp] theorem exec_movsbqDisp (x : Imm8) (y z : Reg) :
    exec (.movsbqDisp x y z) s = load .byte .sign (displacedAddress x (s.readReg y)) z s := rfl
@[simp] theorem exec_movqStore (x y z : Reg) :
    exec (.movqStore x y z) s = store .quad (scaledAddress 1 (s.readReg y) (s.readReg z)) (s.readReg x) s := rfl
@[simp] theorem exec_movl (x y z : Reg) :
    exec (.movl x y z) s = store .long (scaledAddress 1 (s.readReg y) (s.readReg z)) (s.readReg x) s := rfl
@[simp] theorem exec_movw (x y z : Reg) :
    exec (.movw x y z) s = store .word (scaledAddress 1 (s.readReg y) (s.readReg z)) (s.readReg x) s := rfl
@[simp] theorem exec_movb (x y z : Reg) :
    exec (.movb x y z) s = store .byte (scaledAddress 1 (s.readReg y) (s.readReg z)) (s.readReg x) s := rfl
@[simp] theorem exec_movqStoreDisp (x : Reg) (y : Imm8) (z : Reg) :
    exec (.movqStoreDisp x y z) s = store .quad (displacedAddress y (s.readReg z)) (s.readReg x) s := rfl
@[simp] theorem exec_movlDisp (x : Reg) (y : Imm8) (z : Reg) :
    exec (.movlDisp x y z) s = store .long (displacedAddress y (s.readReg z)) (s.readReg x) s := rfl
@[simp] theorem exec_movwDisp (x : Reg) (y : Imm8) (z : Reg) :
    exec (.movwDisp x y z) s = store .word (displacedAddress y (s.readReg z)) (s.readReg x) s := rfl
@[simp] theorem exec_movbDisp (x : Reg) (y : Imm8) (z : Reg) :
    exec (.movbDisp x y z) s = store .byte (displacedAddress y (s.readReg z)) (s.readReg x) s := rfl
@[simp] theorem exec_addqReg (x y z : Reg) :
    exec (.addqReg x y z) s = addInto (s.readReg x) y z s := rfl
@[simp] theorem exec_subqReg (x y z : Reg) :
    exec (.subqReg x y z) s = subInto (s.readReg x) y z s := rfl
@[simp] theorem exec_mulqReg (x y z : Reg) :
    exec (.mulqReg x y z) s = mulInto (s.readReg x) y z s := rfl
@[simp] theorem exec_divqReg (x y z : Reg) :
    exec (.divqReg x y z) s = divInto (s.readReg x).toNat y z s := rfl
@[simp] theorem exec_imulqReg (x y z : Reg) :
    exec (.imulqReg x y z) s = signedMulInto (s.readReg x) y z s := rfl
@[simp] theorem exec_idivqReg (x y z : Reg) :
    exec (.idivqReg x y z) s = signedDivInto (s.readReg x).toInt y z s := rfl
@[simp] theorem exec_addqImm (x : Imm8) (y z : Reg) :
    exec (.addqImm x y z) s = addInto (zeroExtended8 x) y z s := rfl
@[simp] theorem exec_subqImm (x : Imm8) (y z : Reg) :
    exec (.subqImm x y z) s = subInto (zeroExtended8 x) y z s := rfl
@[simp] theorem exec_mulqImm (x : Imm8) (y z : Reg) :
    exec (.mulqImm x y z) s = mulInto (zeroExtended8 x) y z s := rfl
@[simp] theorem exec_divqImm (x : Imm8) (y z : Reg) :
    exec (.divqImm x y z) s = divInto x.toNat y z s := rfl
@[simp] theorem exec_imulqImm (x : Imm8) (y z : Reg) :
    exec (.imulqImm x y z) s = signedMulInto (signExtended8 x) y z s := rfl
@[simp] theorem exec_idivqImm (x : Imm8) (y z : Reg) :
    exec (.idivqImm x y z) s = signedDivInto x.toInt y z s := rfl
@[simp] theorem exec_jmpReg (x y : Reg) :
    exec (.jmpReg x y) s = .next ((s.writeReg y (s.ip + 4)).setIp (s.readReg x)) := rfl
@[simp] theorem exec_jmpRel (xyz : Imm24) :
    exec (.jmpRel xyz) s = .next (s.setIp (relativeTarget s.ip xyz)) := rfl
@[simp] theorem exec_je (xyz : Imm24) :
    exec (.je xyz) s = jumpIf .equal xyz s := rfl
@[simp] theorem exec_jz (xyz : Imm24) :
    exec (.jz xyz) s = jumpIf .equal xyz s := rfl
@[simp] theorem exec_jne (xyz : Imm24) :
    exec (.jne xyz) s = jumpIf .notEqual xyz s := rfl
@[simp] theorem exec_jnz (xyz : Imm24) :
    exec (.jnz xyz) s = jumpIf .notEqual xyz s := rfl
@[simp] theorem exec_jl (xyz : Imm24) :
    exec (.jl xyz) s = jumpIf .less xyz s := rfl
@[simp] theorem exec_jnge (xyz : Imm24) :
    exec (.jnge xyz) s = jumpIf .less xyz s := rfl
@[simp] theorem exec_jge (xyz : Imm24) :
    exec (.jge xyz) s = jumpIf .greaterEqual xyz s := rfl
@[simp] theorem exec_jnl (xyz : Imm24) :
    exec (.jnl xyz) s = jumpIf .greaterEqual xyz s := rfl
@[simp] theorem exec_jle (xyz : Imm24) :
    exec (.jle xyz) s = jumpIf .lessEqual xyz s := rfl
@[simp] theorem exec_jng (xyz : Imm24) :
    exec (.jng xyz) s = jumpIf .lessEqual xyz s := rfl
@[simp] theorem exec_jg (xyz : Imm24) :
    exec (.jg xyz) s = jumpIf .greater xyz s := rfl
@[simp] theorem exec_jnle (xyz : Imm24) :
    exec (.jnle xyz) s = jumpIf .greater xyz s := rfl
@[simp] theorem exec_jb (xyz : Imm24) :
    exec (.jb xyz) s = jumpIf .below xyz s := rfl
@[simp] theorem exec_jnae (xyz : Imm24) :
    exec (.jnae xyz) s = jumpIf .below xyz s := rfl
@[simp] theorem exec_jae (xyz : Imm24) :
    exec (.jae xyz) s = jumpIf .aboveEqual xyz s := rfl
@[simp] theorem exec_jnb (xyz : Imm24) :
    exec (.jnb xyz) s = jumpIf .aboveEqual xyz s := rfl
@[simp] theorem exec_jbe (xyz : Imm24) :
    exec (.jbe xyz) s = jumpIf .belowEqual xyz s := rfl
@[simp] theorem exec_jna (xyz : Imm24) :
    exec (.jna xyz) s = jumpIf .belowEqual xyz s := rfl
@[simp] theorem exec_ja (xyz : Imm24) :
    exec (.ja xyz) s = jumpIf .above xyz s := rfl
@[simp] theorem exec_jnbe (xyz : Imm24) :
    exec (.jnbe xyz) s = jumpIf .above xyz s := rfl
@[simp] theorem exec_orq (x y z : Reg) :
    exec (.orq x y z) s = logicInto z (s.readReg x ||| s.readReg y) s := rfl
@[simp] theorem exec_andq (x y z : Reg) :
    exec (.andq x y z) s = logicInto z (s.readReg x &&& s.readReg y) s := rfl
@[simp] theorem exec_shlqReg (x y z : Reg) :
    exec (.shlqReg x y z) s = shiftLeftInto (s.readReg x).toNat y z s := rfl
@[simp] theorem exec_salqReg (x y z : Reg) :
    exec (.salqReg x y z) s = shiftLeftInto (s.readReg x).toNat y z s := rfl
@[simp] theorem exec_shrqReg (x y z : Reg) :
    exec (.shrqReg x y z) s = shiftRightInto z (shiftedRight (s.readReg x).toNat (s.readReg y)) s := rfl
@[simp] theorem exec_sarqReg (x y z : Reg) :
    exec (.sarqReg x y z) s = shiftRightInto z (shiftedRightSigned (s.readReg x).toNat (s.readReg y)) s := rfl
@[simp] theorem exec_ldzwq (xy : Imm16) (z : Reg) :
    exec (.ldzwq xy z) s = putResult s z (zeroExtended16 xy) (s.flags.withZero (zeroFlag (zeroExtended16 xy))) := rfl
@[simp] theorem exec_ldswq (xy : Imm16) (z : Reg) :
    exec (.ldswq xy z) s = putResult s z (signExtended16 xy) (s.flags.withZero (zeroFlag (signExtended16 xy))) := rfl
@[simp] theorem exec_shlqImm (x : Imm8) (y z : Reg) :
    exec (.shlqImm x y z) s = shiftLeftInto x.toNat y z s := rfl
@[simp] theorem exec_salqImm (x : Imm8) (y z : Reg) :
    exec (.salqImm x y z) s = shiftLeftInto x.toNat y z s := rfl
@[simp] theorem exec_shrqImm (x : Imm8) (y z : Reg) :
    exec (.shrqImm x y z) s = shiftRightInto z (shiftedRight x.toNat (s.readReg y)) s := rfl
@[simp] theorem exec_sarqImm (x : Imm8) (y z : Reg) :
    exec (.sarqImm x y z) s = shiftRightInto z (shiftedRightSigned x.toNat (s.readReg y)) s := rfl
@[simp] theorem exec_shldwq (xy : Imm16) (z : Reg) :
    exec (.shldwq xy z) s = putResult s z (shiftedIn (s.readReg z) xy) ((s.flags.withZero (zeroFlag (shiftedIn (s.readReg z) xy))).withCarry (shldwqCarry (s.readReg z))) := rfl
@[simp] theorem exec_notq (x y : Reg) :
    exec (.notq x y) s = logicInto y (~~~(s.readReg x)) s := rfl
@[simp] theorem exec_getc (x : Reg) :
    exec (.getc x) s = execGetc x s := rfl
@[simp] theorem exec_putcReg (x : Reg) :
    exec (.putcReg x) s = finish (s.pushOutput ((s.readReg x).extractLsb' 0 8)) := rfl
@[simp] theorem exec_putcImm (x : Imm8) :
    exec (.putcImm x) s = finish (s.pushOutput x) := rfl
@[simp] theorem exec_movqLoadScaled2 (x y z : Reg) :
    exec (.movqLoadScaled2 x y z) s = load .quad .zero (scaledAddress 2 (s.readReg x) (s.readReg y)) z s := rfl
@[simp] theorem exec_movzlqScaled2 (x y z : Reg) :
    exec (.movzlqScaled2 x y z) s = load .long .zero (scaledAddress 2 (s.readReg x) (s.readReg y)) z s := rfl
@[simp] theorem exec_movzwqScaled2 (x y z : Reg) :
    exec (.movzwqScaled2 x y z) s = load .word .zero (scaledAddress 2 (s.readReg x) (s.readReg y)) z s := rfl
@[simp] theorem exec_movzbqScaled2 (x y z : Reg) :
    exec (.movzbqScaled2 x y z) s = load .byte .zero (scaledAddress 2 (s.readReg x) (s.readReg y)) z s := rfl
@[simp] theorem exec_movslqScaled2 (x y z : Reg) :
    exec (.movslqScaled2 x y z) s = load .long .sign (scaledAddress 2 (s.readReg x) (s.readReg y)) z s := rfl
@[simp] theorem exec_movswqScaled2 (x y z : Reg) :
    exec (.movswqScaled2 x y z) s = load .word .sign (scaledAddress 2 (s.readReg x) (s.readReg y)) z s := rfl
@[simp] theorem exec_movsbqScaled2 (x y z : Reg) :
    exec (.movsbqScaled2 x y z) s = load .byte .sign (scaledAddress 2 (s.readReg x) (s.readReg y)) z s := rfl
@[simp] theorem exec_movqStoreScaled2 (x y z : Reg) :
    exec (.movqStoreScaled2 x y z) s = store .quad (scaledAddress 2 (s.readReg y) (s.readReg z)) (s.readReg x) s := rfl
@[simp] theorem exec_movlScaled2 (x y z : Reg) :
    exec (.movlScaled2 x y z) s = store .long (scaledAddress 2 (s.readReg y) (s.readReg z)) (s.readReg x) s := rfl
@[simp] theorem exec_movwScaled2 (x y z : Reg) :
    exec (.movwScaled2 x y z) s = store .word (scaledAddress 2 (s.readReg y) (s.readReg z)) (s.readReg x) s := rfl
@[simp] theorem exec_movbScaled2 (x y z : Reg) :
    exec (.movbScaled2 x y z) s = store .byte (scaledAddress 2 (s.readReg y) (s.readReg z)) (s.readReg x) s := rfl
@[simp] theorem exec_movqLoadScaled4 (x y z : Reg) :
    exec (.movqLoadScaled4 x y z) s = load .quad .zero (scaledAddress 4 (s.readReg x) (s.readReg y)) z s := rfl
@[simp] theorem exec_movzlqScaled4 (x y z : Reg) :
    exec (.movzlqScaled4 x y z) s = load .long .zero (scaledAddress 4 (s.readReg x) (s.readReg y)) z s := rfl
@[simp] theorem exec_movzwqScaled4 (x y z : Reg) :
    exec (.movzwqScaled4 x y z) s = load .word .zero (scaledAddress 4 (s.readReg x) (s.readReg y)) z s := rfl
@[simp] theorem exec_movzbqScaled4 (x y z : Reg) :
    exec (.movzbqScaled4 x y z) s = load .byte .zero (scaledAddress 4 (s.readReg x) (s.readReg y)) z s := rfl
@[simp] theorem exec_movslqScaled4 (x y z : Reg) :
    exec (.movslqScaled4 x y z) s = load .long .sign (scaledAddress 4 (s.readReg x) (s.readReg y)) z s := rfl
@[simp] theorem exec_movswqScaled4 (x y z : Reg) :
    exec (.movswqScaled4 x y z) s = load .word .sign (scaledAddress 4 (s.readReg x) (s.readReg y)) z s := rfl
@[simp] theorem exec_movsbqScaled4 (x y z : Reg) :
    exec (.movsbqScaled4 x y z) s = load .byte .sign (scaledAddress 4 (s.readReg x) (s.readReg y)) z s := rfl
@[simp] theorem exec_movqStoreScaled4 (x y z : Reg) :
    exec (.movqStoreScaled4 x y z) s = store .quad (scaledAddress 4 (s.readReg y) (s.readReg z)) (s.readReg x) s := rfl
@[simp] theorem exec_movlScaled4 (x y z : Reg) :
    exec (.movlScaled4 x y z) s = store .long (scaledAddress 4 (s.readReg y) (s.readReg z)) (s.readReg x) s := rfl
@[simp] theorem exec_movwScaled4 (x y z : Reg) :
    exec (.movwScaled4 x y z) s = store .word (scaledAddress 4 (s.readReg y) (s.readReg z)) (s.readReg x) s := rfl
@[simp] theorem exec_movbScaled4 (x y z : Reg) :
    exec (.movbScaled4 x y z) s = store .byte (scaledAddress 4 (s.readReg y) (s.readReg z)) (s.readReg x) s := rfl
@[simp] theorem exec_movqLoadScaled8 (x y z : Reg) :
    exec (.movqLoadScaled8 x y z) s = load .quad .zero (scaledAddress 8 (s.readReg x) (s.readReg y)) z s := rfl
@[simp] theorem exec_movzlqScaled8 (x y z : Reg) :
    exec (.movzlqScaled8 x y z) s = load .long .zero (scaledAddress 8 (s.readReg x) (s.readReg y)) z s := rfl
@[simp] theorem exec_movzwqScaled8 (x y z : Reg) :
    exec (.movzwqScaled8 x y z) s = load .word .zero (scaledAddress 8 (s.readReg x) (s.readReg y)) z s := rfl
@[simp] theorem exec_movzbqScaled8 (x y z : Reg) :
    exec (.movzbqScaled8 x y z) s = load .byte .zero (scaledAddress 8 (s.readReg x) (s.readReg y)) z s := rfl
@[simp] theorem exec_movslqScaled8 (x y z : Reg) :
    exec (.movslqScaled8 x y z) s = load .long .sign (scaledAddress 8 (s.readReg x) (s.readReg y)) z s := rfl
@[simp] theorem exec_movswqScaled8 (x y z : Reg) :
    exec (.movswqScaled8 x y z) s = load .word .sign (scaledAddress 8 (s.readReg x) (s.readReg y)) z s := rfl
@[simp] theorem exec_movsbqScaled8 (x y z : Reg) :
    exec (.movsbqScaled8 x y z) s = load .byte .sign (scaledAddress 8 (s.readReg x) (s.readReg y)) z s := rfl
@[simp] theorem exec_movqStoreScaled8 (x y z : Reg) :
    exec (.movqStoreScaled8 x y z) s = store .quad (scaledAddress 8 (s.readReg y) (s.readReg z)) (s.readReg x) s := rfl
@[simp] theorem exec_movlScaled8 (x y z : Reg) :
    exec (.movlScaled8 x y z) s = store .long (scaledAddress 8 (s.readReg y) (s.readReg z)) (s.readReg x) s := rfl
@[simp] theorem exec_movwScaled8 (x y z : Reg) :
    exec (.movwScaled8 x y z) s = store .word (scaledAddress 8 (s.readReg y) (s.readReg z)) (s.readReg x) s := rfl
@[simp] theorem exec_movbScaled8 (x y z : Reg) :
    exec (.movbScaled8 x y z) s = store .byte (scaledAddress 8 (s.readReg y) (s.readReg z)) (s.readReg x) s := rfl
@[simp] theorem exec_nop :
    exec .nop s = finish s := rfl

end Sys2Proof.Machine
end

