-- ==== Sys2Proof/Laws/Memory.lean ====
section
/-! SUPPORT. Memory (spec/20_memory.md R40 to R45): every memory operation keeps the canonical form, a byte
written reads back, and every other byte reads as before. -/

namespace Sys2Proof.Machine

@[simp] theorem Memory.read_nil (a : Nat) : Memory.read [] a = unlistedByte := rfl

@[simp] theorem Memory.wf_nil : Memory.wf [] = true := rfl

/-- The canonical form of a memory with a first cell. -/
theorem Memory.wf_cons (k : Nat) (c : Byte) (m : Memory) :
    Memory.wf ((k, c) :: m) = true ↔
      k < 2 ^ 64 ∧ c ≠ unlistedByte ∧ Memory.headAbove k m = true ∧ Memory.wf m = true := by
  simp [Memory.wf, and_assoc]

/-- Below the first listed address of a canonical memory every byte is unlisted. -/
theorem Memory.read_of_headAbove {m : Memory} {k a : Nat} (hm : Memory.wf m = true)
    (hk : Memory.headAbove k m = true) (ha : a ≤ k) : Memory.read m a = unlistedByte := by
  induction m generalizing k with
  | nil => rfl
  | cons cell m ih =>
    obtain ⟨k', c⟩ := cell
    have hk' : k < k' := by simpa [Memory.headAbove] using hk
    obtain ⟨-, -, h1, h2⟩ := (Memory.wf_cons k' c m).1 hm
    rw [Memory.read, if_neg (by omega)]
    exact ih h2 h1 (by omega)

/-- A write leaves every other byte alone, in any list of cells. -/
theorem Memory.read_write_ne (m : Memory) {a b : Nat} (v : Byte) (h : b ≠ a) :
    (Memory.write m a v).read b = Memory.read m b := by
  induction m with
  | nil => simp only [Memory.write]; split <;> simp [Memory.read, h]
  | cons cell m ih =>
    obtain ⟨k, c⟩ := cell
    simp only [Memory.write]
    split
    · split <;> simp [Memory.read, h]
    · split
      · next e => subst e; split <;> simp [Memory.read, h]
      · simp only [Memory.read, ih]

/-- A byte written to a canonical memory reads back. -/
theorem Memory.read_write_self {m : Memory} (hm : Memory.wf m = true) (a : Nat) (v : Byte) :
    (Memory.write m a v).read a = v := by
  induction m with
  | nil => simp only [Memory.write]; split <;> simp_all [Memory.read]
  | cons cell m ih =>
    obtain ⟨k, c⟩ := cell
    obtain ⟨-, -, h1, h2⟩ := (Memory.wf_cons k c m).1 hm
    simp only [Memory.write]
    split
    · next hlt =>
      split
      · next hv =>
        rw [Memory.read, if_neg (by omega), hv]
        exact Memory.read_of_headAbove h2 h1 (by omega)
      · simp [Memory.read]
    · split
      · next e =>
        subst e
        split
        · next hv => rw [hv]; exact Memory.read_of_headAbove h2 h1 le_rfl
        · simp [Memory.read]
      · next hne => simp only [Memory.read, if_neg hne, ih h2]

/-- The first listed address after a write is the old one or the one written. -/
theorem Memory.headAbove_write {m : Memory} {k a : Nat} (v : Byte) (hm : Memory.wf m = true)
    (hk : Memory.headAbove k m = true) (ha : k < a) : Memory.headAbove k (Memory.write m a v) = true := by
  cases m with
  | nil => simp only [Memory.write]; split <;> simp [Memory.headAbove, ha]
  | cons cell m =>
    obtain ⟨k', c⟩ := cell
    have hk' : k < k' := by simpa [Memory.headAbove] using hk
    obtain ⟨-, -, h1, -⟩ := (Memory.wf_cons k' c m).1 hm
    simp only [Memory.write]
    split
    · split <;> simp [Memory.headAbove, ha, hk']
    · split
      · split
        · cases m with
          | nil => rfl
          | cons cell' m' =>
            have : k' < cell'.1 := by simpa [Memory.headAbove] using h1
            simp only [Memory.headAbove, decide_eq_true_eq]; omega
        · simp [Memory.headAbove, ha]
      · simp [Memory.headAbove, hk']

/-- A write at an address of the address space keeps the canonical form. -/
theorem Memory.wf_write {m : Memory} (hm : Memory.wf m = true) {a : Nat} (v : Byte) (ha : a < 2 ^ 64) :
    Memory.wf (Memory.write m a v) = true := by
  induction m with
  | nil =>
    simp only [Memory.write]
    split
    · rfl
    · next hv => exact (Memory.wf_cons _ _ _).2 ⟨ha, hv, rfl, rfl⟩
  | cons cell m ih =>
    obtain ⟨k, c⟩ := cell
    obtain ⟨hk, hc, h1, h2⟩ := (Memory.wf_cons k c m).1 hm
    simp only [Memory.write]
    split
    · next hlt =>
      split
      · exact hm
      · next hv => exact (Memory.wf_cons _ _ _).2 ⟨ha, hv, by simp [Memory.headAbove, hlt], hm⟩
    · split
      · next e =>
        subst e
        split
        · exact h2
        · next hv => exact (Memory.wf_cons _ _ _).2 ⟨ha, hv, h1, h2⟩
      · exact (Memory.wf_cons _ _ _).2
          ⟨hk, hc, Memory.headAbove_write v h2 h1 (by omega), ih h2⟩

/-- Storing bytes keeps the canonical form. -/
theorem Memory.wf_writeBytes {m : Memory} (hm : Memory.wf m = true) (a : Word) (bs : List Byte) :
    Memory.wf (Memory.writeBytes m a bs) = true := by
  induction bs generalizing m a with
  | nil => exact hm
  | cons b bs ih => exact ih (Memory.wf_write hm b a.isLt) (a + 1)

/-- Storing single bytes, each at its own address, keeps the canonical form. -/
theorem Memory.wf_writeCells {m : Memory} (hm : Memory.wf m = true) (cs : List (Word × Byte)) :
    Memory.wf (Memory.writeCells m cs) = true := by
  induction cs generalizing m with
  | nil => exact hm
  | cons c cs ih => exact ih (Memory.wf_write hm c.2 c.1.isLt)

/-- Placing an instruction word keeps the canonical form. -/
theorem Memory.wf_placeWord {m : Memory} (hm : Memory.wf m = true) (a : Word) (w : BitVec 32) :
    Memory.wf (Memory.placeWord m a w) = true :=
  Memory.wf_writeBytes hm a _

/-- The code byte that halt may leave keeps the canonical form. -/
theorem wf_haltedMemory {s : State} (hm : s.mem.wf = true) (c : Byte) : (haltedMemory s c).wf = true := by
  simp only [haltedMemory]
  split
  · exact hm
  · exact Memory.wf_write hm c (BitVec.isLt _)

/-- The address one further on. -/
theorem address_succ (a : Word) (i : Nat) :
    a + BitVec.ofNat 64 (i + 1) = a + 1 + BitVec.ofNat 64 i := by
  rw [BitVec.ofNat_add, BitVec.add_comm (BitVec.ofNat 64 i), ← BitVec.add_assoc]
  rfl

/-- Storing bytes leaves alone every byte whose address is none of theirs. -/
theorem Memory.read_writeBytes_outside (m : Memory) (a : Word) (bs : List Byte) {b : Nat}
    (h : ∀ i, i < bs.length → b ≠ (a + BitVec.ofNat 64 i).toNat) :
    (Memory.writeBytes m a bs).read b = Memory.read m b := by
  induction bs generalizing m a with
  | nil => rfl
  | cons x xs ih =>
    have h0 : b ≠ a.toNat := by simpa using h 0 (by simp)
    rw [Memory.writeBytes, ih]
    · exact Memory.read_write_ne m x h0
    · intro i hi
      have h1 := h (i + 1) (by simpa using hi)
      rwa [address_succ] at h1

/-- At most 2^64 bytes stored to a canonical memory read back, each at its own address. -/
theorem Memory.read_writeBytes_inside {m : Memory} (hm : Memory.wf m = true) (a : Word) (bs : List Byte)
    (hl : bs.length ≤ 2 ^ 64) {i : Nat} (hi : i < bs.length) :
    (Memory.writeBytes m a bs).read (a + BitVec.ofNat 64 i).toNat = bs[i] := by
  induction bs generalizing m a i with
  | nil => simp at hi
  | cons x xs ih =>
    have hl' : xs.length + 1 ≤ 2 ^ 64 := by simpa using hl
    cases i with
    | zero =>
      rw [Memory.writeBytes, Memory.read_writeBytes_outside]
      · simpa using Memory.read_write_self hm a.toNat x
      · intro j hj e
        have hj' : j + 1 < 2 ^ 64 := by omega
        have := BitVec.toNat_inj.1 e
        have h2 : a + BitVec.ofNat 64 0 = a + BitVec.ofNat 64 (j + 1) := by
          rw [this, address_succ]
        have h3 := congrArg BitVec.toNat ((BitVec.add_right_inj a).1 h2)
        simp only [BitVec.toNat_ofNat] at h3
        omega
    | succ i =>
      rw [Memory.writeBytes, address_succ]
      simpa using ih (Memory.wf_write hm x a.isLt) (a + 1) (by omega) (by simpa using hi)

/-- Single bytes stored in order leave alone every byte at no address of theirs. -/
theorem Memory.read_writeCells_outside (m : Memory) (cs : List (Word × Byte)) {b : Nat}
    (h : ∀ c ∈ cs, b ≠ c.1.toNat) : (Memory.writeCells m cs).read b = Memory.read m b := by
  induction cs generalizing m with
  | nil => rfl
  | cons c cs ih =>
    rw [Memory.writeCells, ih _ fun c' hc' => h c' (List.mem_cons_of_mem _ hc')]
    exact Memory.read_write_ne m c.2 (h c List.mem_cons_self)

/-- Of single bytes stored in order to a canonical memory, one whose address no later one has reads back. -/
theorem Memory.read_writeCells_last {m : Memory} (hm : Memory.wf m = true) (cs : List (Word × Byte))
    (a : Word) (v : Byte) {ds : List (Word × Byte)} (h : ∀ c ∈ ds, a ≠ c.1) :
    (Memory.writeCells m (cs ++ (a, v) :: ds)).read a.toNat = v := by
  induction cs generalizing m with
  | nil =>
    rw [List.nil_append, Memory.writeCells,
      Memory.read_writeCells_outside _ ds fun c hc e => h c hc (BitVec.toNat_inj.1 e)]
    exact Memory.read_write_self hm a.toNat v
  | cons c cs ih => exact ih (Memory.wf_write hm c.2 c.1.isLt)

/-- The code byte that halt may leave changes no byte but the last cell. -/
theorem read_haltedMemory (s : State) (c : Byte) {b : Nat}
    (h : ∀ l, s.platform.lastCell = some l → b ≠ l.toNat) : (haltedMemory s c).read b = s.mem.read b := by
  simp only [haltedMemory]
  split
  · rfl
  · next l e => exact Memory.read_write_ne _ _ (h l e)

@[simp] theorem Memory.length_readBytes (m : Memory) (a : Word) (n : Nat) :
    (Memory.readBytes m a n).length = n := by
  induction n generalizing a with
  | zero => rfl
  | succ n ih => simp [Memory.readBytes, ih]

/-- The bytes read, each by its address. -/
theorem Memory.getElem_readBytes (m : Memory) (a : Word) (n i : Nat) (hi : i < n) :
    (Memory.readBytes m a n)[i]'(by simpa using hi) = m.read (a + BitVec.ofNat 64 i).toNat := by
  induction n generalizing a i with
  | zero => omega
  | succ n ih =>
    cases i with
    | zero => simp [Memory.readBytes]
    | succ i =>
      rw [address_succ]
      simpa [Memory.readBytes] using ih (a + 1) i (by omega)

@[simp] theorem length_bigEndianBytes (n v : Nat) : (bigEndianBytes n v).length = n := by
  induction n with
  | zero => rfl
  | succ n ih => simp [bigEndianBytes, ih]

/-- Byte `i` of the stored pattern, the most significant first (R44). -/
theorem getElem_bigEndianBytes (n v i : Nat) (hi : i < n) :
    (bigEndianBytes n v)[i]'(by simpa using hi) = BitVec.ofNat 8 (v / 256 ^ (n - 1 - i)) := by
  induction n generalizing i with
  | zero => omega
  | succ n ih =>
    cases i with
    | zero => simp [bigEndianBytes]
    | succ i =>
      have e : n - 1 - i = n - (i + 1) := by omega
      simpa [bigEndianBytes, e] using ih i (by omega)

/-- The pattern that big-endian bytes make is below 256 to their number. -/
theorem bigEndianValue_lt (bs : List Byte) : bigEndianValue bs < 256 ^ bs.length := by
  induction bs with
  | nil => simp [bigEndianValue]
  | cons b bs ih =>
    have hb : b.toNat + 1 ≤ 256 := by have := b.isLt; omega
    have := Nat.mul_le_mul_right (256 ^ bs.length) hb
    simp only [bigEndianValue, List.length_cons, pow_succ]
    nlinarith

end Sys2Proof.Machine
end

