-- ==== Sys2Proof/Laws/State.lean ====
section
/-! SUPPORT. What each field of the state is after each named update, one lemma per field per update, so
that no later proof unfolds a record update. -/

namespace Sys2Proof.Machine

variable (s : State)

@[simp] theorem writeReg_gpr (r : Reg) (v : Word) : (s.writeReg r v).gpr = writtenRegisters s.gpr r v := rfl
@[simp] theorem writeReg_ip (r : Reg) (v : Word) : (s.writeReg r v).ip = s.ip := rfl
@[simp] theorem writeReg_flags (r : Reg) (v : Word) : (s.writeReg r v).flags = s.flags := rfl
@[simp] theorem writeReg_mem (r : Reg) (v : Word) : (s.writeReg r v).mem = s.mem := rfl
@[simp] theorem writeReg_status (r : Reg) (v : Word) : (s.writeReg r v).status = s.status := rfl
@[simp] theorem writeReg_input (r : Reg) (v : Word) : (s.writeReg r v).input = s.input := rfl
@[simp] theorem writeReg_output (r : Reg) (v : Word) : (s.writeReg r v).output = s.output := rfl
@[simp] theorem writeReg_hostLog (r : Reg) (v : Word) : (s.writeReg r v).hostLog = s.hostLog := rfl
@[simp] theorem writeReg_platform (r : Reg) (v : Word) : (s.writeReg r v).platform = s.platform := rfl
@[simp] theorem writeReg_hostReplies (r : Reg) (v : Word) : (s.writeReg r v).hostReplies = s.hostReplies := rfl
@[simp] theorem writeReg_draws (r : Reg) (v : Word) : (s.writeReg r v).draws = s.draws := rfl

@[simp] theorem setIp_gpr (a : Word) : (s.setIp a).gpr = s.gpr := rfl
@[simp] theorem setIp_ip (a : Word) : (s.setIp a).ip = a := rfl
@[simp] theorem setIp_flags (a : Word) : (s.setIp a).flags = s.flags := rfl
@[simp] theorem setIp_mem (a : Word) : (s.setIp a).mem = s.mem := rfl
@[simp] theorem setIp_status (a : Word) : (s.setIp a).status = s.status := rfl
@[simp] theorem setIp_input (a : Word) : (s.setIp a).input = s.input := rfl
@[simp] theorem setIp_output (a : Word) : (s.setIp a).output = s.output := rfl
@[simp] theorem setIp_hostLog (a : Word) : (s.setIp a).hostLog = s.hostLog := rfl
@[simp] theorem setIp_platform (a : Word) : (s.setIp a).platform = s.platform := rfl
@[simp] theorem setIp_hostReplies (a : Word) : (s.setIp a).hostReplies = s.hostReplies := rfl
@[simp] theorem setIp_draws (a : Word) : (s.setIp a).draws = s.draws := rfl
@[simp] theorem setIp_readReg (a : Word) (q : Reg) : (s.setIp a).readReg q = s.readReg q := rfl

@[simp] theorem advance_gpr : s.advance.gpr = s.gpr := rfl
@[simp] theorem advance_ip : s.advance.ip = s.ip + 4 := rfl
@[simp] theorem advance_flags : s.advance.flags = s.flags := rfl
@[simp] theorem advance_mem : s.advance.mem = s.mem := rfl
@[simp] theorem advance_status : s.advance.status = s.status := rfl
@[simp] theorem advance_input : s.advance.input = s.input := rfl
@[simp] theorem advance_output : s.advance.output = s.output := rfl
@[simp] theorem advance_hostLog : s.advance.hostLog = s.hostLog := rfl
@[simp] theorem advance_platform : s.advance.platform = s.platform := rfl
@[simp] theorem advance_hostReplies : s.advance.hostReplies = s.hostReplies := rfl
@[simp] theorem advance_draws : s.advance.draws = s.draws := rfl
@[simp] theorem advance_readReg (q : Reg) : s.advance.readReg q = s.readReg q := rfl

@[simp] theorem setFlags_gpr (f : Flags) : (s.setFlags f).gpr = s.gpr := rfl
@[simp] theorem setFlags_ip (f : Flags) : (s.setFlags f).ip = s.ip := rfl
@[simp] theorem setFlags_flags (f : Flags) : (s.setFlags f).flags = f := rfl
@[simp] theorem setFlags_mem (f : Flags) : (s.setFlags f).mem = s.mem := rfl
@[simp] theorem setFlags_status (f : Flags) : (s.setFlags f).status = s.status := rfl
@[simp] theorem setFlags_input (f : Flags) : (s.setFlags f).input = s.input := rfl
@[simp] theorem setFlags_output (f : Flags) : (s.setFlags f).output = s.output := rfl
@[simp] theorem setFlags_hostLog (f : Flags) : (s.setFlags f).hostLog = s.hostLog := rfl
@[simp] theorem setFlags_platform (f : Flags) : (s.setFlags f).platform = s.platform := rfl
@[simp] theorem setFlags_hostReplies (f : Flags) : (s.setFlags f).hostReplies = s.hostReplies := rfl
@[simp] theorem setFlags_draws (f : Flags) : (s.setFlags f).draws = s.draws := rfl
@[simp] theorem setFlags_readReg (f : Flags) (q : Reg) : (s.setFlags f).readReg q = s.readReg q := rfl

@[simp] theorem setMem_gpr (m : Memory) : (s.setMem m).gpr = s.gpr := rfl
@[simp] theorem setMem_ip (m : Memory) : (s.setMem m).ip = s.ip := rfl
@[simp] theorem setMem_flags (m : Memory) : (s.setMem m).flags = s.flags := rfl
@[simp] theorem setMem_mem (m : Memory) : (s.setMem m).mem = m := rfl
@[simp] theorem setMem_status (m : Memory) : (s.setMem m).status = s.status := rfl
@[simp] theorem setMem_input (m : Memory) : (s.setMem m).input = s.input := rfl
@[simp] theorem setMem_output (m : Memory) : (s.setMem m).output = s.output := rfl
@[simp] theorem setMem_hostLog (m : Memory) : (s.setMem m).hostLog = s.hostLog := rfl
@[simp] theorem setMem_platform (m : Memory) : (s.setMem m).platform = s.platform := rfl
@[simp] theorem setMem_hostReplies (m : Memory) : (s.setMem m).hostReplies = s.hostReplies := rfl
@[simp] theorem setMem_draws (m : Memory) : (s.setMem m).draws = s.draws := rfl
@[simp] theorem setMem_readReg (m : Memory) (q : Reg) : (s.setMem m).readReg q = s.readReg q := rfl

@[simp] theorem raise_gpr (f : RaisedFault) : (s.raise f).gpr = s.gpr := rfl
@[simp] theorem raise_ip (f : RaisedFault) : (s.raise f).ip = s.ip := rfl
@[simp] theorem raise_flags (f : RaisedFault) : (s.raise f).flags = s.flags := rfl
@[simp] theorem raise_mem (f : RaisedFault) : (s.raise f).mem = s.mem := rfl
@[simp] theorem raise_status (f : RaisedFault) : (s.raise f).status = .faulted f := rfl
@[simp] theorem raise_input (f : RaisedFault) : (s.raise f).input = s.input := rfl
@[simp] theorem raise_output (f : RaisedFault) : (s.raise f).output = s.output := rfl
@[simp] theorem raise_hostLog (f : RaisedFault) : (s.raise f).hostLog = s.hostLog := rfl
@[simp] theorem raise_platform (f : RaisedFault) : (s.raise f).platform = s.platform := rfl
@[simp] theorem raise_hostReplies (f : RaisedFault) : (s.raise f).hostReplies = s.hostReplies := rfl
@[simp] theorem raise_draws (f : RaisedFault) : (s.raise f).draws = s.draws := rfl
@[simp] theorem raise_readReg (f : RaisedFault) (q : Reg) : (s.raise f).readReg q = s.readReg q := rfl

@[simp] theorem halt_gpr (c : Byte) : (s.halt c).gpr = s.gpr := rfl
@[simp] theorem halt_ip (c : Byte) : (s.halt c).ip = s.ip := rfl
@[simp] theorem halt_flags (c : Byte) : (s.halt c).flags = s.flags := rfl
@[simp] theorem halt_mem (c : Byte) : (s.halt c).mem = haltedMemory s c := rfl
@[simp] theorem halt_status (c : Byte) : (s.halt c).status = .halted c := rfl
@[simp] theorem halt_input (c : Byte) : (s.halt c).input = s.input := rfl
@[simp] theorem halt_output (c : Byte) : (s.halt c).output = s.output := rfl
@[simp] theorem halt_hostLog (c : Byte) : (s.halt c).hostLog = s.hostLog := rfl
@[simp] theorem halt_platform (c : Byte) : (s.halt c).platform = s.platform := rfl
@[simp] theorem halt_hostReplies (c : Byte) : (s.halt c).hostReplies = s.hostReplies := rfl
@[simp] theorem halt_draws (c : Byte) : (s.halt c).draws = s.draws := rfl
@[simp] theorem halt_readReg (c : Byte) (q : Reg) : (s.halt c).readReg q = s.readReg q := rfl

@[simp] theorem pushOutput_gpr (b : Byte) : (s.pushOutput b).gpr = s.gpr := rfl
@[simp] theorem pushOutput_ip (b : Byte) : (s.pushOutput b).ip = s.ip := rfl
@[simp] theorem pushOutput_flags (b : Byte) : (s.pushOutput b).flags = s.flags := rfl
@[simp] theorem pushOutput_mem (b : Byte) : (s.pushOutput b).mem = s.mem := rfl
@[simp] theorem pushOutput_status (b : Byte) : (s.pushOutput b).status = s.status := rfl
@[simp] theorem pushOutput_input (b : Byte) : (s.pushOutput b).input = s.input := rfl
@[simp] theorem pushOutput_output (b : Byte) : (s.pushOutput b).output = s.output ++ [b] := rfl
@[simp] theorem pushOutput_hostLog (b : Byte) : (s.pushOutput b).hostLog = s.hostLog := rfl
@[simp] theorem pushOutput_platform (b : Byte) : (s.pushOutput b).platform = s.platform := rfl
@[simp] theorem pushOutput_hostReplies (b : Byte) : (s.pushOutput b).hostReplies = s.hostReplies := rfl
@[simp] theorem pushOutput_draws (b : Byte) : (s.pushOutput b).draws = s.draws := rfl
@[simp] theorem pushOutput_readReg (b : Byte) (q : Reg) : (s.pushOutput b).readReg q = s.readReg q := rfl

@[simp] theorem supplyInput_gpr (bs : List Byte) : (s.supplyInput bs).gpr = s.gpr := rfl
@[simp] theorem supplyInput_ip (bs : List Byte) : (s.supplyInput bs).ip = s.ip := rfl
@[simp] theorem supplyInput_flags (bs : List Byte) : (s.supplyInput bs).flags = s.flags := rfl
@[simp] theorem supplyInput_mem (bs : List Byte) : (s.supplyInput bs).mem = s.mem := rfl
@[simp] theorem supplyInput_status (bs : List Byte) : (s.supplyInput bs).status = s.status := rfl
@[simp] theorem supplyInput_input (bs : List Byte) : (s.supplyInput bs).input = s.input ++ bs := rfl
@[simp] theorem supplyInput_output (bs : List Byte) : (s.supplyInput bs).output = s.output := rfl
@[simp] theorem supplyInput_hostLog (bs : List Byte) : (s.supplyInput bs).hostLog = s.hostLog := rfl
@[simp] theorem supplyInput_platform (bs : List Byte) : (s.supplyInput bs).platform = s.platform := rfl
@[simp] theorem supplyInput_hostReplies (bs : List Byte) : (s.supplyInput bs).hostReplies = s.hostReplies := rfl
@[simp] theorem supplyInput_draws (bs : List Byte) : (s.supplyInput bs).draws = s.draws := rfl
@[simp] theorem supplyInput_readReg (bs : List Byte) (q : Reg) : (s.supplyInput bs).readReg q = s.readReg q := rfl

@[simp] theorem supplyReplies_gpr (rs : List HostReply) : (s.supplyReplies rs).gpr = s.gpr := rfl
@[simp] theorem supplyReplies_ip (rs : List HostReply) : (s.supplyReplies rs).ip = s.ip := rfl
@[simp] theorem supplyReplies_flags (rs : List HostReply) : (s.supplyReplies rs).flags = s.flags := rfl
@[simp] theorem supplyReplies_mem (rs : List HostReply) : (s.supplyReplies rs).mem = s.mem := rfl
@[simp] theorem supplyReplies_status (rs : List HostReply) : (s.supplyReplies rs).status = s.status := rfl
@[simp] theorem supplyReplies_input (rs : List HostReply) : (s.supplyReplies rs).input = s.input := rfl
@[simp] theorem supplyReplies_output (rs : List HostReply) : (s.supplyReplies rs).output = s.output := rfl
@[simp] theorem supplyReplies_hostLog (rs : List HostReply) : (s.supplyReplies rs).hostLog = s.hostLog := rfl
@[simp] theorem supplyReplies_platform (rs : List HostReply) : (s.supplyReplies rs).platform = s.platform := rfl
@[simp] theorem supplyReplies_hostReplies (rs : List HostReply) : (s.supplyReplies rs).hostReplies = s.hostReplies ++ rs := rfl
@[simp] theorem supplyReplies_draws (rs : List HostReply) : (s.supplyReplies rs).draws = s.draws := rfl
@[simp] theorem supplyReplies_readReg (rs : List HostReply) (q : Reg) : (s.supplyReplies rs).readReg q = s.readReg q := rfl

@[simp] theorem recordHost_gpr (e : HostEvent) (rs : List HostReply) : (s.recordHost e rs).gpr = s.gpr := rfl
@[simp] theorem recordHost_ip (e : HostEvent) (rs : List HostReply) : (s.recordHost e rs).ip = s.ip := rfl
@[simp] theorem recordHost_flags (e : HostEvent) (rs : List HostReply) : (s.recordHost e rs).flags = s.flags := rfl
@[simp] theorem recordHost_mem (e : HostEvent) (rs : List HostReply) : (s.recordHost e rs).mem = s.mem := rfl
@[simp] theorem recordHost_status (e : HostEvent) (rs : List HostReply) : (s.recordHost e rs).status = s.status := rfl
@[simp] theorem recordHost_input (e : HostEvent) (rs : List HostReply) : (s.recordHost e rs).input = s.input := rfl
@[simp] theorem recordHost_output (e : HostEvent) (rs : List HostReply) : (s.recordHost e rs).output = s.output := rfl
@[simp] theorem recordHost_hostLog (e : HostEvent) (rs : List HostReply) : (s.recordHost e rs).hostLog = s.hostLog ++ [e] := rfl
@[simp] theorem recordHost_platform (e : HostEvent) (rs : List HostReply) : (s.recordHost e rs).platform = s.platform := rfl
@[simp] theorem recordHost_hostReplies (e : HostEvent) (rs : List HostReply) : (s.recordHost e rs).hostReplies = rs := rfl
@[simp] theorem recordHost_draws (e : HostEvent) (rs : List HostReply) : (s.recordHost e rs).draws = s.draws := rfl
@[simp] theorem recordHost_readReg (e : HostEvent) (rs : List HostReply) (q : Reg) : (s.recordHost e rs).readReg q = s.readReg q := rfl

@[simp] theorem consumeInput_gpr (x : Reg) (c : Byte) (rest : List Byte) : (s.consumeInput x c rest).gpr = writtenRegisters s.gpr x (getcValue s x c) := rfl
@[simp] theorem consumeInput_ip (x : Reg) (c : Byte) (rest : List Byte) : (s.consumeInput x c rest).ip = s.ip := rfl
@[simp] theorem consumeInput_flags (x : Reg) (c : Byte) (rest : List Byte) : (s.consumeInput x c rest).flags = s.flags := rfl
@[simp] theorem consumeInput_mem (x : Reg) (c : Byte) (rest : List Byte) : (s.consumeInput x c rest).mem = s.mem := rfl
@[simp] theorem consumeInput_status (x : Reg) (c : Byte) (rest : List Byte) : (s.consumeInput x c rest).status = s.status := rfl
@[simp] theorem consumeInput_input (x : Reg) (c : Byte) (rest : List Byte) : (s.consumeInput x c rest).input = rest := rfl
@[simp] theorem consumeInput_output (x : Reg) (c : Byte) (rest : List Byte) : (s.consumeInput x c rest).output = s.output := rfl
@[simp] theorem consumeInput_hostLog (x : Reg) (c : Byte) (rest : List Byte) : (s.consumeInput x c rest).hostLog = s.hostLog := rfl
@[simp] theorem consumeInput_platform (x : Reg) (c : Byte) (rest : List Byte) : (s.consumeInput x c rest).platform = s.platform := rfl
@[simp] theorem consumeInput_hostReplies (x : Reg) (c : Byte) (rest : List Byte) : (s.consumeInput x c rest).hostReplies = s.hostReplies := rfl
@[simp] theorem consumeInput_draws (x : Reg) (c : Byte) (rest : List Byte) : (s.consumeInput x c rest).draws = getcDraws s := rfl

end Sys2Proof.Machine
end

