-- ==== Sys2Proof/Laws/Registers.lean ====
section
/-! SUPPORT. Reading a register after a write (spec/10_state.md R21). -/

namespace Sys2Proof.Machine

/-- Two register numbers other than 0 that share a slot are equal. -/
theorem registerSlot_inj {q r : Reg} (hq : q ≠ 0) (hr : r ≠ 0)
    (h : (registerSlot q hq).val = (registerSlot r hr).val) : q = r := by
  have h0 : q.toNat ≠ 0 := fun e => hq (BitVec.eq_of_toNat_eq (by simpa using e))
  have h1 : r.toNat ≠ 0 := fun e => hr (BitVec.eq_of_toNat_eq (by simpa using e))
  simp only [registerSlot] at h
  exact BitVec.eq_of_toNat_eq (by omega)

/-- The zero register reads as zero. -/
@[simp] theorem readReg_zero (s : State) : s.readReg 0#8 = 0#64 := by simp [State.readReg]

/-- A write to the zero register is discarded. -/
@[simp] theorem writeReg_zero (s : State) (v : Word) : s.writeReg 0#8 v = s := by
  simp [State.writeReg, writtenRegisters]

/-- A register other than `%0` reads as written. -/
theorem readReg_writeReg_self (s : State) {r : Reg} (v : Word) (h : r ≠ 0) :
    (s.writeReg r v).readReg r = v := by
  simp only [State.readReg, State.writeReg, writtenRegisters, h, dite_false, Vector.get_eq_getElem]
  simp

/-- Every other register reads as before. -/
theorem readReg_writeReg_ne (s : State) {q r : Reg} (v : Word) (h : q ≠ r) :
    (s.writeReg r v).readReg q = s.readReg q := by
  by_cases hr : r = 0
  · subst hr; simp
  by_cases hq : q = 0
  · subst hq; simp
  have hne : (registerSlot r hr).val ≠ (registerSlot q hq).val := fun e => h (registerSlot_inj hr hq e).symm
  simp only [State.readReg, State.writeReg, writtenRegisters, hr, hq, dite_false, Vector.get_eq_getElem]
  exact Vector.getElem_set_ne _ _ hne

/-- The destination of a write reads as the rule of the zero register says. -/
theorem readReg_writeReg_dest (s : State) (r : Reg) (v : Word) :
    (s.writeReg r v).readReg r = if r = 0 then 0 else v := by
  split
  · next h => subst h; simp
  · next h => exact readReg_writeReg_self s v h

end Sys2Proof.Machine
end

