-- ==== Sys2Proof/Laws/Ops.lean ====
section
/-! SUPPORT. One lemma for each shared operation that says once everything it can do. -/

namespace Sys2Proof.Machine

@[simp] theorem finish_eq (s : State) : finish s = .next s.advance := rfl

@[simp] theorem raised_eq (s : State) (f : RaisedFault) : raised s f = .next (s.raise f) := rfl

@[simp] theorem putResult_eq (s : State) (z : Reg) (r : Word) (f : Flags) :
    putResult s z r f = .next ((s.writeReg z r).setFlags f).advance := rfl

/-- Sequential advance as R25 writes it. -/
theorem advance_ip_eq (s : State) : s.advance.ip = BitVec.ofNat 64 (s.ip.toNat + 4) := by
  apply BitVec.eq_of_toNat_eq
  simp [BitVec.toNat_add]

/-! ### Flags under the installation's choices -/

/-- The silent flags: nothing happens, or four free values replace the flags (R29). -/
theorem silentFlags_cases (s : State) :
    (s.platform.silentFlags = .unchanged ∧ s.silentFlags = s) ∨
    (s.platform.silentFlags = .arbitrary ∧
      s.silentFlags = { s with flags := arbitraryFlags s.draws, draws := s.draws + 4 }) := by
  cases h : s.platform.silentFlags <;> simp [State.silentFlags, h]

/-- What the silent flags leave alone, whichever choice the installation made. -/
theorem silentFlags_keeps (s : State) :
    s.silentFlags.gpr = s.gpr ∧ s.silentFlags.ip = s.ip ∧ s.silentFlags.mem = s.mem ∧
      s.silentFlags.status = s.status ∧ s.silentFlags.input = s.input ∧ s.silentFlags.output = s.output ∧
      s.silentFlags.hostLog = s.hostLog ∧ s.silentFlags.platform = s.platform ∧
      s.silentFlags.hostReplies = s.hostReplies ∧ ∀ q, s.silentFlags.readReg q = s.readReg q := by
  rcases silentFlags_cases s with ⟨-, h⟩ | ⟨-, h⟩ <;> rw [h] <;> exact ⟨rfl, rfl, rfl, rfl, rfl, rfl, rfl, rfl, rfl, fun _ => rfl⟩

/-- mulq's flags: the table's, or two free values for CF and OF (R104). -/
theorem afterMulqFlags_cases (s : State) (a b : Word) :
    (s.platform.mulqFlags = .literal ∧
      s.afterMulqFlags a b = s.setFlags (s.flags.withCarryOverflow (mulFlag a b) (mulFlag a b))) ∨
    (s.platform.mulqFlags = .arbitrary ∧
      s.afterMulqFlags a b =
        { s with
          flags := s.flags.withCarryOverflow (Config.freeFlag s.draws) (Config.freeFlag (s.draws + 1))
          draws := s.draws + 2 }) := by
  cases h : s.platform.mulqFlags <;> simp [State.afterMulqFlags, h]

/-- What mulq's flags leave alone, whichever choice the installation made. -/
theorem afterMulqFlags_keeps (s : State) (a b : Word) :
    (s.afterMulqFlags a b).gpr = s.gpr ∧ (s.afterMulqFlags a b).ip = s.ip ∧
      (s.afterMulqFlags a b).mem = s.mem ∧ (s.afterMulqFlags a b).status = s.status ∧
      (s.afterMulqFlags a b).input = s.input ∧ (s.afterMulqFlags a b).output = s.output ∧
      (s.afterMulqFlags a b).hostLog = s.hostLog ∧ (s.afterMulqFlags a b).platform = s.platform ∧
      (s.afterMulqFlags a b).hostReplies = s.hostReplies ∧
      (s.afterMulqFlags a b).flags.zf = s.flags.zf ∧ (s.afterMulqFlags a b).flags.sf = s.flags.sf ∧
      ∀ q, (s.afterMulqFlags a b).readReg q = s.readReg q := by
  rcases afterMulqFlags_cases s a b with ⟨-, h⟩ | ⟨-, h⟩ <;> rw [h] <;>
    exact ⟨rfl, rfl, rfl, rfl, rfl, rfl, rfl, rfl, rfl, rfl, rfl, fun _ => rfl⟩

/-! ### Memory -/

/-- What an admitted range is: each of its bytes exists, and if it wraps, the platform admits it (R53). -/
theorem admits_iff (p : Platform) (a : Word) (n : Nat) :
    p.admits a n = true ↔ (a.toNat + n ≤ 2 ^ 64 ∨ (a, n) ∈ p.wrappingRanges) ∧
      ∀ i, i < n → p.byteExists (a + BitVec.ofNat 64 i).toNat = true := by
  simp [Platform.admits, BitVec.toNat_add]

/-- A single byte is admitted exactly when it exists. -/
theorem admits_one (p : Platform) (a : Word) : p.admits a 1 = p.byteExists a.toNat := by
  have h : a.toNat < 18446744073709551616 := a.isLt
  simp [Platform.admits, h, Nat.mod_eq_of_lt h]

/-- An aligned access of a width that divides 2^64 does not wrap (R50): 1, 2, 4 and 8 do. -/
theorem toNat_add_of_aligned {a : Word} {n i : Nat} (hn : n ∣ 2 ^ 64) (h : a.toNat % n = 0) (hi : i < n) :
    (a + BitVec.ofNat 64 i).toNat = a.toNat + i := by
  obtain ⟨k, hk⟩ := Nat.dvd_of_mod_eq_zero h
  obtain ⟨m, hm⟩ := hn
  have ha := a.isLt
  have hkm : k < m := Nat.lt_of_mul_lt_mul_left (a := n) (by rw [← hk, ← hm]; exact ha)
  have hle : n * (k + 1) ≤ n * m := Nat.mul_le_mul_left n hkm
  rw [Nat.mul_add, ← hk, ← hm] at hle
  rw [BitVec.toNat_add, BitVec.toNat_ofNat]
  omega

/-- The three outcomes of a memory read (R43). -/
theorem memRead_cases (s : State) (a : Word) (n : Nat) :
    (a.toNat % n ≠ 0 ∧ s.memRead a n = .error (.alignmentFault a)) ∨
    (a.toNat % n = 0 ∧ s.platform.admits a n = true ∧
      s.memRead a n = .ok (bigEndianValue (s.mem.readBytes a n))) ∨
    (a.toNat % n = 0 ∧ s.platform.admits a n = false ∧ s.memRead a n = .error (.memoryAccessFault a)) := by
  by_cases h : a.toNat % n = 0
  · cases h2 : s.platform.admits a n <;> simp [State.memRead, h, h2]
  · simp [State.memRead, h]

/-- The three outcomes of a memory write (R44). -/
theorem memWrite_cases (s : State) (a : Word) (n v : Nat) :
    (a.toNat % n ≠ 0 ∧ s.memWrite a n v = .error (.alignmentFault a)) ∨
    (a.toNat % n = 0 ∧ s.platform.admits a n = true ∧
      s.memWrite a n v = .ok (s.setMem (s.mem.writeBytes a (bigEndianBytes n v)))) ∨
    (a.toNat % n = 0 ∧ s.platform.admits a n = false ∧ s.memWrite a n v = .error (.memoryAccessFault a)) := by
  by_cases h : a.toNat % n = 0
  · cases h2 : s.platform.admits a n <;> simp [State.memWrite, h, h2]
  · simp [State.memWrite, h]

/-- Everything a load can do. -/
theorem load_cases (w : Width) (e : Extension) (a : Word) (z : Reg) (s : State) :
    (a.toNat % w.bytes ≠ 0 ∧ load w e a z s = .next (s.raise (.alignmentFault a))) ∨
    (a.toNat % w.bytes = 0 ∧ s.platform.admits a w.bytes = true ∧
      load w e a z s =
        .next (s.writeReg z (extended e w (bigEndianValue (s.mem.readBytes a w.bytes)))).advance) ∨
    (a.toNat % w.bytes = 0 ∧ s.platform.admits a w.bytes = false ∧
      load w e a z s = .next (s.raise (.memoryAccessFault a))) := by
  rcases memRead_cases s a w.bytes with ⟨h, h'⟩ | ⟨h, h1, h'⟩ | ⟨h, h1, h'⟩
  · exact .inl ⟨h, by simp [load, h']⟩
  · exact .inr (.inl ⟨h, h1, by simp [load, h']⟩)
  · exact .inr (.inr ⟨h, h1, by simp [load, h']⟩)

/-- Everything a store can do. -/
theorem store_cases (w : Width) (a v : Word) (s : State) :
    (a.toNat % w.bytes ≠ 0 ∧ store w a v s = .next (s.raise (.alignmentFault a))) ∨
    (a.toNat % w.bytes = 0 ∧ s.platform.admits a w.bytes = true ∧
      store w a v s =
        .next (s.setMem (s.mem.writeBytes a (bigEndianBytes w.bytes v.toNat))).advance) ∨
    (a.toNat % w.bytes = 0 ∧ s.platform.admits a w.bytes = false ∧
      store w a v s = .next (s.raise (.memoryAccessFault a))) := by
  rcases memWrite_cases s a w.bytes v.toNat with ⟨h, h'⟩ | ⟨h, h1, h'⟩ | ⟨h, h1, h'⟩
  · exact .inl ⟨h, by simp [store, h']⟩
  · exact .inr (.inl ⟨h, h1, by simp [store, h']⟩)
  · exact .inr (.inr ⟨h, h1, by simp [store, h']⟩)

/-! ### Jumps, multiplication, division -/

/-- Everything a conditional jump can do. -/
theorem jumpIf_cases (c : Condition) (o : Imm24) (s : State) :
    (c.holds s.flags = true ∧ jumpIf c o s = .next (s.setIp (relativeTarget s.ip o))) ∨
    (c.holds s.flags = false ∧ jumpIf c o s = .next s.advance) := by
  cases h : c.holds s.flags <;> simp [jumpIf, h]

/-- Everything mulq can do. -/
theorem mulInto_cases (a : Word) (y z : Reg) (s : State) :
    (z = 255 ∧ mulInto a y z s = .next (s.raise (.registerIndexFault z))) ∨
    (z ≠ 255 ∧ mulInto a y z s =
      .next (((s.writeReg z (productLow a (s.readReg y))).writeReg (z + 1)
        (productHigh a (s.readReg y))).afterMulqFlags a (s.readReg y)).advance) := by
  by_cases h : z = 255
  · exact .inl ⟨h, by simp only [mulInto, if_pos h]; rfl⟩
  · exact .inr ⟨h, by simp only [mulInto, if_neg h]; rfl⟩

/-- Everything divq can do, `n` being its dividend. -/
theorem divInto_cases (d : Nat) (y z : Reg) (s : State) (n : Nat)
    (hn : n = dividendOf (s.readReg y) (s.readReg (y + 1))) :
    (y = 255 ∧ divInto d y z s = .next (s.raise (.registerIndexFault y))) ∨
    (y ≠ 255 ∧ 254 ≤ z.toNat ∧ divInto d y z s = .next (s.raise (.registerIndexFault z))) ∨
    (y ≠ 255 ∧ z.toNat < 254 ∧ d = 0 ∧ divInto d y z s = .next (s.raise .divideByZero)) ∨
    (y ≠ 255 ∧ z.toNat < 254 ∧ d ≠ 0 ∧ divInto d y z s =
      .next ((((s.writeReg z (BitVec.ofNat 64 (n / d % 2 ^ 64))).writeReg (z + 1)
        (BitVec.ofNat 64 (n / d / 2 ^ 64))).writeReg (z + 2) (BitVec.ofNat 64 (n % d))).silentFlags).advance) := by
  subst hn
  by_cases hy : y = 255
  · exact .inl ⟨hy, by simp only [divInto, if_pos hy]; rfl⟩
  by_cases hz : 254 ≤ z.toNat
  · exact .inr (.inl ⟨hy, hz, by simp only [divInto, if_neg hy, if_pos hz]; rfl⟩)
  have hz' : z.toNat < 254 := by omega
  by_cases hd : d = 0
  · exact .inr (.inr (.inl ⟨hy, hz', hd, by simp only [divInto, if_neg hy, if_neg hz, if_pos hd]; rfl⟩))
  · exact .inr (.inr (.inr ⟨hy, hz', hd, by simp only [divInto, if_neg hy, if_neg hz, if_neg hd]; rfl⟩))

/-- Everything idivq can do. -/
theorem signedDivInto_cases (xv : Int) (y z : Reg) (s : State) (yv : Int) (hy : yv = (s.readReg y).toInt) :
    (z = 255 ∧ signedDivInto xv y z s = .next (s.raise (.registerIndexFault z))) ∨
    (z ≠ 255 ∧ xv = 0 ∧ signedDivInto xv y z s = .next (s.raise .divideByZero)) ∨
    (z ≠ 255 ∧ xv ≠ 0 ∧ (signedQuotient xv yv = 2 ^ 63 ∧ s.platform.idivqOverflow = .fault) ∧
      signedDivInto xv y z s = .next (s.raise .divideOverflow)) ∨
    (z ≠ 255 ∧ xv ≠ 0 ∧ ¬(signedQuotient xv yv = 2 ^ 63 ∧ s.platform.idivqOverflow = .fault) ∧
      signedDivInto xv y z s =
        .next (((s.writeReg z (BitVec.ofInt 64 (signedQuotient xv yv))).writeReg (z + 1)
          (BitVec.ofInt 64 (signedRemainder xv yv))).silentFlags).advance) := by
  subst hy
  by_cases hz : z = 255
  · exact .inl ⟨hz, by simp only [signedDivInto, if_pos hz]; rfl⟩
  by_cases hx : xv = 0
  · exact .inr (.inl ⟨hz, hx, by simp only [signedDivInto, if_neg hz, if_pos hx]; rfl⟩)
  by_cases ho : signedQuotient xv (s.readReg y).toInt = 2 ^ 63 ∧ s.platform.idivqOverflow = .fault
  · exact .inr (.inr (.inl ⟨hz, hx, ho, by simp only [signedDivInto, if_neg hz, if_neg hx, if_pos ho]; rfl⟩))
  · exact .inr (.inr (.inr ⟨hz, hx, ho, by simp only [signedDivInto, if_neg hz, if_neg hx, if_neg ho]; rfl⟩))

/-! ### Traps -/

/-- The three outcomes of reading the parameter block (R151). -/
theorem paramBlock_cases (s : State) (p : Word) :
    (p.toNat % 8 ≠ 0 ∧ s.paramBlock p = .error (.alignmentFault p)) ∨
    (p.toNat % 8 = 0 ∧ s.platform.admits p 24 = true ∧ s.paramBlock p =
      .ok { fd := (BitVec.ofNat 32 (bigEndianValue (s.mem.readBytes p 4))).toInt
            buf := BitVec.ofNat 64 (bigEndianValue (s.mem.readBytes (p + 8) 8))
            nbyte := bigEndianValue (s.mem.readBytes (p + 16) 8) }) ∨
    (p.toNat % 8 = 0 ∧ s.platform.admits p 24 = false ∧ s.paramBlock p = .error (.memoryAccessFault p)) := by
  by_cases h : p.toNat % 8 = 0
  · cases h2 : s.platform.admits p 24 <;> simp [State.paramBlock, h, h2]
  · simp [State.paramBlock, h]

/-- No byte of the range is missing exactly when each of them is admitted. -/
theorem firstUnadmitted_none (p : Platform) (a : Word) (n : Nat) :
    p.firstUnadmitted a n = none ↔ ∀ i, i < n → p.admits (a + BitVec.ofNat 64 i) 1 = true := by
  induction n generalizing a with
  | zero => simp [Platform.firstUnadmitted]
  | succ n ih =>
    cases h : p.admits a 1
    · simp only [Platform.firstUnadmitted, h]
      constructor
      · intro h'; simp at h'
      · intro h'; have := h' 0 (by omega); simp [h] at this
    · simp only [Platform.firstUnadmitted, h, if_true, ih]
      constructor
      · intro h' i hi
        cases i with
        | zero => simpa using h
        | succ i => rw [address_succ]; exact h' i (by omega)
      · intro h' i hi
        rw [← address_succ]; exact h' (i + 1) (by omega)

/-- The byte reported missing is the first one that is not admitted. -/
theorem firstUnadmitted_some (p : Platform) (a b : Word) (n : Nat) :
    p.firstUnadmitted a n = some b ↔ ∃ i, i < n ∧ b = a + BitVec.ofNat 64 i ∧ p.admits b 1 = false ∧
      ∀ j, j < i → p.admits (a + BitVec.ofNat 64 j) 1 = true := by
  induction n generalizing a with
  | zero => simp [Platform.firstUnadmitted]
  | succ n ih =>
    cases h : p.admits a 1
    · simp only [Platform.firstUnadmitted, h]
      constructor
      · intro h'
        have e : a = b := by simpa using h'
        exact ⟨0, by omega, by simp [e], e ▸ h, by omega⟩
      · rintro ⟨i, hi, rfl, h1, h2⟩
        cases i with
        | zero => simp
        | succ i => have := h2 0 (by omega); simp [h] at this
    · simp only [Platform.firstUnadmitted, h, if_true, ih]
      constructor
      · rintro ⟨i, hi, rfl, h1, h2⟩
        refine ⟨i + 1, by omega, by rw [address_succ], h1, fun j hj => ?_⟩
        cases j with
        | zero => simpa using h
        | succ j => rw [address_succ]; exact h2 j (by omega)
      · rintro ⟨i, hi, rfl, h1, h2⟩
        cases i with
        | zero => simp [h] at h1
        | succ i =>
          refine ⟨i, by omega, by rw [address_succ], h1, fun j hj => ?_⟩
          rw [← address_succ]; exact h2 (j + 1) (by omega)

/-- No byte of a handler's accesses is missing exactly when each of them is admitted. -/
theorem firstUnadmittedAccess_none (p : Platform) (as : List Word) :
    firstUnadmittedAccess p as = none ↔ ∀ a ∈ as, p.admits a 1 = true := by
  simp [firstUnadmittedAccess]

/-- The missing byte that is reported is the first of the accesses that is not admitted. -/
theorem firstUnadmittedAccess_some (p : Platform) (as : List Word) (a : Word) :
    firstUnadmittedAccess p as = some a ↔
      p.admits a 1 = false ∧ ∃ before after, as = before ++ a :: after ∧ ∀ b ∈ before, p.admits b 1 = true := by
  simp [firstUnadmittedAccess, List.find?_eq_some_iff_append]

/-- The accesses of a handler are admitted exactly when its reads and its writes are. -/
theorem accesses_admitted (p : Platform) (r : TrapReply) :
    (∀ a ∈ r.accesses, p.admits a 1 = true) ↔
      (∀ a ∈ r.reads, p.admits a 1 = true) ∧ ∀ c ∈ r.writes, p.admits c.1 1 = true := by
  simp only [TrapReply.accesses, List.forall_mem_append, List.forall_mem_map]

/-- A bounded read answer delivers no more than was asked for. -/
theorem length_boundedRead {n : Nat} {r : ReadReply} {bs : List Byte} (h : boundedRead n r = .ok bs) :
    bs.length ≤ n := by
  cases r with
  | ok x => cases h; exact List.length_take_le _ _
  | err e he => cases h

/-- A bounded write answer takes no more than was offered. -/
theorem le_boundedWrite {n k : Nat} {r : WriteReply} (h : boundedWrite n r = .ok k) : k ≤ n := by
  cases r with
  | ok x => cases h; exact Nat.min_le_right _ _
  | err e he => cases h

/-- A read answer is within the host's contract (R149). -/
theorem readReply_bounded (s : State) (fd : Int) (n : Nat) {bs : List Byte}
    (h : s.readReply fd n = .ok bs) : bs.length ≤ n :=
  length_boundedRead h

/-- A write answer is within the host's contract (R150). -/
theorem writeReply_bounded (s : State) (fd : Int) (data : List Byte) {k : Nat}
    (h : s.writeReply fd data = .ok k) : k ≤ data.length :=
  le_boundedWrite h

/-- Everything trap 0 can do. -/
theorem trapRead_cases (p : Word) (z : Reg) (s : State) :
    (∃ f, s.paramBlock p = .error f ∧ trapRead p z s = .next (s.raise f)) ∨
    (∃ b a, s.paramBlock p = .ok b ∧ s.platform.firstUnadmitted b.buf b.nbyte = some a ∧
      trapRead p z s = .next (s.raise (.memoryAccessFault a))) ∨
    (∃ b r, s.paramBlock p = .ok b ∧ s.platform.firstUnadmitted b.buf b.nbyte = none ∧
      r = s.readReply b.fd b.nbyte ∧
      trapRead p z s =
        .next (((s.setMem (s.mem.writeBytes b.buf (readData r))).recordHost (.read b.fd b.nbyte r)
          (afterRead s.hostReplies)).writeReg z (readValue r)).advance) := by
  cases hp : s.paramBlock p with
  | error f => exact .inl ⟨f, rfl, by simp [trapRead, hp]⟩
  | ok b =>
    cases hu : s.platform.firstUnadmitted b.buf b.nbyte with
    | some a => exact .inr (.inl ⟨b, a, rfl, hu, by simp [trapRead, hp, hu]⟩)
    | none => exact .inr (.inr ⟨b, _, rfl, hu, rfl, by simp [trapRead, hp, hu, trapReturn]⟩)

/-- Everything trap 1 can do. -/
theorem trapWrite_cases (p : Word) (z : Reg) (s : State) :
    (∃ f, s.paramBlock p = .error f ∧ trapWrite p z s = .next (s.raise f)) ∨
    (∃ b a, s.paramBlock p = .ok b ∧ s.platform.firstUnadmitted b.buf b.nbyte = some a ∧
      trapWrite p z s = .next (s.raise (.memoryAccessFault a))) ∨
    (∃ b data r, s.paramBlock p = .ok b ∧ s.platform.firstUnadmitted b.buf b.nbyte = none ∧
      data = s.mem.readBytes b.buf b.nbyte ∧ r = s.writeReply b.fd data ∧
      trapWrite p z s =
        .next ((s.recordHost (.write b.fd data r) (afterWrite s.hostReplies)).writeReg z
          (writeValue r)).advance) := by
  cases hp : s.paramBlock p with
  | error f => exact .inl ⟨f, rfl, by simp [trapWrite, hp]⟩
  | ok b =>
    cases hu : s.platform.firstUnadmitted b.buf b.nbyte with
    | some a => exact .inr (.inl ⟨b, a, rfl, hu, by simp [trapWrite, hp, hu]⟩)
    | none => exact .inr (.inr ⟨b, _, _, rfl, hu, rfl, rfl, by simp [trapWrite, hp, hu, trapReturn]⟩)

/-- Everything any other trap number can do. -/
theorem trapOther_cases (n p : Word) (z : Reg) (s : State) :
    (n ∉ s.platform.extraTraps ∧ trapOther n p z s = .next (s.raise (.unknownTrap n))) ∨
    (∃ a, n ∈ s.platform.extraTraps ∧ firstUnadmittedAccess s.platform (s.otherReply n p).accesses = some a ∧
      trapOther n p z s = .next (s.raise (.memoryAccessFault a))) ∨
    (∃ r, n ∈ s.platform.extraTraps ∧ r = s.otherReply n p ∧ firstUnadmittedAccess s.platform r.accesses = none ∧
      trapOther n p z s =
        .next (((s.setMem (s.mem.writeCells r.writes)).recordHost (.other n p r)
          (afterOther s.hostReplies)).writeReg z r.value).advance) := by
  by_cases hn : n ∈ s.platform.extraTraps
  · cases hu : firstUnadmittedAccess s.platform (s.otherReply n p).accesses with
    | some a => exact .inr (.inl ⟨a, hn, rfl, by simp [trapOther, hn, hu]⟩)
    | none => exact .inr (.inr ⟨_, hn, rfl, hu, by simp [trapOther, hn, hu, trapReturn]⟩)
  · exact .inl ⟨hn, by simp [trapOther, hn]⟩

end Sys2Proof.Machine
end

