-- ==== Sys2Proof/Laws/Effects.lean ====
section
/-! SUPPORT. Said once: everything an instruction, and everything a step, can do. Claims about every
instruction are derived from `exec_effect` and `step_cases` by cases, without unfolding exec again. -/

namespace Sys2Proof.Machine

/-- The memory, the run status, the devices, the host and the installation are as before. -/
def Quiet (s t : State) : Prop :=
  t.mem = s.mem ∧ t.status = s.status ∧ t.input = s.input ∧ t.output = s.output ∧ t.hostLog = s.hostLog ∧
    t.platform = s.platform ∧ t.hostReplies = s.hostReplies

/-- The flags the instruction's row of R28 does not name are as before, unless silent flags are free. -/
def FlagsByRow (i : Instr) (s t : State) : Prop :=
  s.platform.silentFlags = .unchanged →
    (i.flagsWritten.1 = false → t.flags.zf = s.flags.zf) ∧
    (i.flagsWritten.2.1 = false → t.flags.cf = s.flags.cf) ∧
    (i.flagsWritten.2.2.1 = false → t.flags.of = s.flags.of) ∧
    (i.flagsWritten.2.2.2 = false → t.flags.sf = s.flags.sf)

/-- `%ip` was set by something other than a register jump: 4 further on, a relative target, or unmoved. -/
def IpMoved (i : Instr) (s t : State) : Prop :=
  t.ip = s.ip + 4 ∨ (∃ o, t.ip = relativeTarget s.ip o) ∨ t.ip = s.ip ∨ ∃ x y, i = .jmpReg x y

/-- What an instruction can do to the state, by its kind. -/
inductive Effect (i : Instr) (s : State) : State → Prop
  /-- It raises a fault of its row of R309. -/
  | fault (f : RaisedFault) (h : f.name ∈ i.canRaise) : Effect i s (s.raise f)
  /-- It writes registers, flags and `%ip` only. -/
  | quiet (t : State) (h : Quiet s t) (hr : s.RegsKept t i.destinations) (hf : FlagsByRow i s t)
      (ha : IpMoved i s t) : Effect i s t
  /-- It stores to admitted bytes. -/
  | store (a : Word) (n v : Nat) (h : s.platform.admits a n = true) (hm : i.touchesMemory = true) :
      Effect i s (s.setMem (s.mem.writeBytes a (bigEndianBytes n v))).advance
  /-- It halts. -/
  | halt (c : Byte) (hm : i.touchesMemory = true) : Effect i s (s.halt c)
  /-- It appends to the output stream. -/
  | output (b : Byte) (hi : ∃ x, i = .putcReg x ∨ i = .putcImm x) : Effect i s (s.pushOutput b).advance
  /-- It takes an input byte. -/
  | input (x : Reg) (c : Byte) (rest : List Byte) (h : s.input = c :: rest) (hi : i = .getc x) :
      Effect i s (s.consumeInput x c rest).advance
  /-- It completes trap 0 or 1; a write stores no bytes. -/
  | transfer (a : Word) (bs : List Byte) (n : Nat) (e : HostEvent) (q : List HostReply) (z : Reg) (v : Word)
      (hi : ∃ x y, i = .trap x y z) (h : s.platform.firstUnadmitted a n = none) (hb : bs.length ≤ n)
      (he : HostEvent.WithinContract e) :
      Effect i s (((s.setMem (s.mem.writeBytes a bs)).recordHost e q).writeReg z v).advance
  /-- It completes a trap of the platform's own. -/
  | handler (cs : List (Word × Byte)) (e : HostEvent) (q : List HostReply) (z : Reg) (v : Word)
      (hi : ∃ x y, i = .trap x y z) (h : ∀ c ∈ cs, s.platform.admits c.1 1 = true)
      (he : HostEvent.WithinContract e) :
      Effect i s (((s.setMem (s.mem.writeCells cs)).recordHost e q).writeReg z v).advance

variable {i : Instr} {s t : State}

/-- No flag written satisfies every row. -/
theorem flagsByRow_same (h : t.flags = s.flags) : FlagsByRow i s t := fun _ =>
  ⟨fun _ => by rw [h], fun _ => by rw [h], fun _ => by rw [h], fun _ => by rw [h]⟩

theorem putResult_effect {z : Reg} {r : Word} {f : Flags} (hd : i.destinations = [z])
    (hf : FlagsByRow i s (s.setFlags f)) (h : putResult s z r f = .next t) : Effect i s t := by
  cases h
  exact .quiet _ ⟨rfl, rfl, rfl, rfl, rfl, rfl, rfl⟩
    (fun q hq => readReg_writeReg_ne s _ (by simpa [hd] using hq)) hf (.inl rfl)

theorem signedMulInto_effect {a : Word} {y z : Reg} (hd : i.destinations = [z])
    (hf : i.flagsWritten = (false, true, true, false)) (h : signedMulInto a y z s = .next t) : Effect i s t :=
  putResult_effect hd (fun _ => by rw [hf]; exact ⟨fun _ => rfl, nofun, nofun, fun _ => rfl⟩) h

theorem load_effect {w : Width} {e : Extension} {a : Word} {z : Reg} (hd : i.destinations = [z])
    (h1 : w ≠ .byte → FaultName.alignment ∈ i.canRaise) (h2 : FaultName.memoryAccess ∈ i.canRaise)
    (h : load w e a z s = .next t) : Effect i s t := by
  rcases load_cases w e a z s with ⟨h3, h'⟩ | ⟨-, -, h'⟩ | ⟨-, -, h'⟩ <;> rw [h] at h' <;> cases h'
  · exact .fault _ (h1 (by rintro rfl; exact h3 (Nat.mod_one _)))
  · exact .quiet _ ⟨rfl, rfl, rfl, rfl, rfl, rfl, rfl⟩
      (fun q hq => readReg_writeReg_ne s _ (by simpa [hd] using hq)) (flagsByRow_same rfl) (.inl rfl)
  · exact .fault _ h2

theorem store_effect {w : Width} {a v : Word} (hm : i.touchesMemory = true)
    (h1 : w ≠ .byte → FaultName.alignment ∈ i.canRaise) (h2 : FaultName.memoryAccess ∈ i.canRaise)
    (h : store w a v s = .next t) : Effect i s t := by
  rcases store_cases w a v s with ⟨h3, h'⟩ | ⟨-, h3, h'⟩ | ⟨-, -, h'⟩ <;> rw [h] at h' <;> cases h'
  · exact .fault _ (h1 (by rintro rfl; exact h3 (Nat.mod_one _)))
  · exact .store _ _ _ h3 hm
  · exact .fault _ h2

theorem jumpIf_effect {c : Condition} {o : Imm24} (h : jumpIf c o s = .next t) : Effect i s t := by
  rcases jumpIf_cases c o s with ⟨-, h'⟩ | ⟨-, h'⟩ <;> rw [h] at h' <;> cases h'
  · exact .quiet _ ⟨rfl, rfl, rfl, rfl, rfl, rfl, rfl⟩ (fun _ _ => rfl) (flagsByRow_same rfl) (.inr (.inl ⟨o, rfl⟩))
  · exact .quiet _ ⟨rfl, rfl, rfl, rfl, rfl, rfl, rfl⟩ (fun _ _ => rfl) (flagsByRow_same rfl) (.inl rfl)

theorem mulInto_effect {a : Word} {y z : Reg} (hd : i.destinations = [z, z + 1])
    (hf : i.flagsWritten = (false, true, true, false)) (h1 : FaultName.registerIndex ∈ i.canRaise)
    (h : mulInto a y z s = .next t) : Effect i s t := by
  rcases mulInto_cases a y z s with ⟨-, h'⟩ | ⟨-, h'⟩ <;> rw [h] at h' <;> cases h'
  · exact .fault _ h1
  · obtain ⟨-, k2, k3, k4, k5, k6, k7, k8, k9, k10, k11, k12⟩ := afterMulqFlags_keeps
      ((s.writeReg z (productLow a (s.readReg y))).writeReg (z + 1) (productHigh a (s.readReg y))) a (s.readReg y)
    refine .quiet _ ⟨k3, k4, k5, k6, k7, k8, k9⟩ ?_ ?_ (.inl (by rw [advance_ip, k2]; rfl))
    · intro r hr
      simp only [hd, List.mem_cons, List.not_mem_nil, or_false, not_or] at hr
      rw [advance_readReg, k12, readReg_writeReg_ne _ _ hr.2, readReg_writeReg_ne _ _ hr.1]
    · intro _; rw [hf]; exact ⟨fun _ => k10, by simp, by simp, fun _ => k11⟩

/-- Registers written, then the silent flags, then the advance. -/
theorem silent_effect {w : State} (hq : Quiet s w) (hr : s.RegsKept w i.destinations) (hs : w.flags = s.flags)
    (hip : w.ip = s.ip) : Effect i s w.silentFlags.advance := by
  obtain ⟨-, k2, k3, k4, k5, k6, k7, k8, k9, k12⟩ := silentFlags_keeps w
  obtain ⟨q1, q2, q3, q4, q5, q6, q7⟩ := hq
  refine .quiet _ ⟨k3.trans q1, k4.trans q2, k5.trans q3, k6.trans q4, k7.trans q5, k8.trans q6, k9.trans q7⟩
    (fun r h => (k12 r).trans (hr r h)) ?_ (.inl (by rw [advance_ip, k2, hip]))
  rcases silentFlags_cases w with ⟨-, q⟩ | ⟨q, -⟩
  · exact flagsByRow_same (by rw [q]; exact hs)
  · intro hu; rw [q6, hu] at q; cases q

theorem divInto_effect {d : Nat} {y z : Reg} (hd : i.destinations = [z, z + 1, z + 2])
    (h1 : FaultName.registerIndex ∈ i.canRaise) (h2 : FaultName.divideByZero ∈ i.canRaise)
    (h : divInto d y z s = .next t) : Effect i s t := by
  rcases divInto_cases d y z s _ rfl with ⟨-, h'⟩ | ⟨-, -, h'⟩ | ⟨-, -, -, h'⟩ | ⟨-, -, -, h'⟩ <;>
    rw [h] at h' <;> cases h'
  · exact .fault _ h1
  · exact .fault _ h1
  · exact .fault _ h2
  · refine silent_effect ⟨rfl, rfl, rfl, rfl, rfl, rfl, rfl⟩ ?_ rfl rfl
    intro r hr
    simp only [hd, List.mem_cons, List.not_mem_nil, or_false, not_or] at hr
    rw [readReg_writeReg_ne _ _ hr.2.2, readReg_writeReg_ne _ _ hr.2.1, readReg_writeReg_ne _ _ hr.1]

theorem signedDivInto_effect {d : Int} {y z : Reg} (hd : i.destinations = [z, z + 1])
    (h1 : FaultName.registerIndex ∈ i.canRaise) (h2 : FaultName.divideByZero ∈ i.canRaise)
    (h3 : FaultName.divideOverflow ∈ i.canRaise) (h : signedDivInto d y z s = .next t) : Effect i s t := by
  rcases signedDivInto_cases d y z s _ rfl with ⟨-, h'⟩ | ⟨-, -, h'⟩ | ⟨-, -, -, h'⟩ | ⟨-, -, -, h'⟩ <;>
    rw [h] at h' <;> cases h'
  · exact .fault _ h1
  · exact .fault _ h2
  · exact .fault _ h3
  · refine silent_effect ⟨rfl, rfl, rfl, rfl, rfl, rfl, rfl⟩ ?_ rfl rfl
    intro r hr
    simp only [hd, List.mem_cons, List.not_mem_nil, or_false, not_or] at hr
    rw [readReg_writeReg_ne _ _ hr.2, readReg_writeReg_ne _ _ hr.1]

theorem shiftRightInto_effect {z : Reg} {r : Word} (hd : i.destinations = [z])
    (h : shiftRightInto z r s = .next t) : Effect i s t := by
  cases h
  exact silent_effect ⟨rfl, rfl, rfl, rfl, rfl, rfl, rfl⟩
    (fun q hq => readReg_writeReg_ne s _ (by simpa [hd] using hq)) rfl rfl

theorem shiftLeftInto_effect {n : Nat} {y z : Reg} (hd : i.destinations = [z])
    (hf : i.flagsWritten = (false, true, false, false)) (h : shiftLeftInto n y z s = .next t) : Effect i s t := by
  cases h
  obtain ⟨-, k2, k3, k4, k5, k6, k7, k8, k9, k12⟩ := silentFlags_keeps (s.writeReg z (shiftedLeft n (s.readReg y)))
  refine .quiet _ ⟨k3, k4, k5, k6, k7, k8, k9⟩
    (fun q hq => (k12 q).trans (readReg_writeReg_ne s _ (by simpa [hd] using hq))) ?_
    (.inl (by rw [advance_ip, setFlags_ip, k2]; rfl))
  rcases silentFlags_cases (s.writeReg z (shiftedLeft n (s.readReg y))) with ⟨-, q⟩ | ⟨q, -⟩
  · intro _; rw [hf]
    rw [q]
    exact ⟨fun _ => rfl, nofun, fun _ => rfl, fun _ => rfl⟩
  · intro hu; rw [writeReg_platform, hu] at q; cases q

theorem getc_effect {x : Reg} (hi : i = .getc x) (h : execGetc x s = .next t) : Effect i s t := by
  unfold execGetc at h
  split at h
  · cases h
    exact .quiet _ ⟨rfl, rfl, rfl, rfl, rfl, rfl, rfl⟩ (fun _ _ => rfl) (flagsByRow_same rfl) (.inr (.inr (.inl rfl)))
  · cases h
    exact .input _ _ _ (by assumption) hi

theorem trap_effect {x y z : Reg} (h : execTrap x y z s = .next t) : Effect (.trap x y z) s t := by
  have hp : ∀ p f, s.paramBlock p = .error f → f.name ∈ (Instr.trap x y z).canRaise := by
    intro p f h
    rcases paramBlock_cases s p with ⟨_, h'⟩ | ⟨_, _, h'⟩ | ⟨_, _, h'⟩ <;> rw [h'] at h <;> cases h <;>
      simp [RaisedFault.name, Instr.canRaise]
  unfold execTrap at h
  split at h
  · rcases trapRead_cases (s.readReg y) z s with ⟨f, h0, h'⟩ | ⟨b, a, -, -, h'⟩ | ⟨b, r, -, h1, h2, h'⟩ <;>
      rw [h] at h' <;> cases h'
    · exact .fault _ (hp _ _ h0)
    · exact .fault _ (by simp [RaisedFault.name, Instr.canRaise])
    · refine .transfer _ _ b.nbyte _ _ _ _ ⟨_, _, rfl⟩ h1 ?_ ?_
      · cases r with
        | ok bs => exact readReply_bounded s _ _ h2.symm
        | err e he => simp [readData]
      · cases r with
        | ok bs => exact readReply_bounded s _ _ h2.symm
        | err e he => trivial
  · split at h
    · rcases trapWrite_cases (s.readReg y) z s with ⟨f, h0, h'⟩ | ⟨b, a, -, -, h'⟩ | ⟨b, d, r, -, -, -, h2, h'⟩ <;>
        rw [h] at h' <;> cases h'
      · exact .fault _ (hp _ _ h0)
      · exact .fault _ (by simp [RaisedFault.name, Instr.canRaise])
      · refine .transfer b.buf [] 0 _ _ _ _ ⟨_, _, rfl⟩ rfl (by simp) ?_
        cases r with
        | ok k => exact writeReply_bounded s _ _ h2.symm
        | err e he => trivial
    · rcases trapOther_cases (s.readReg x) (s.readReg y) z s with ⟨-, h'⟩ | ⟨a, -, -, h'⟩ | ⟨r, -, -, h2, h'⟩ <;>
        rw [h] at h' <;> cases h'
      · exact .fault _ (by simp [RaisedFault.name, Instr.canRaise])
      · exact .fault _ (by simp [RaisedFault.name, Instr.canRaise])
      · exact .handler _ _ _ _ _ ⟨_, _, rfl⟩
          ((accesses_admitted _ _).1 ((firstUnadmittedAccess_none _ _).1 h2)).2 trivial

/-- Everything an instruction can do. -/
theorem exec_effect (h : exec i s = .next t) : Effect i s t := by
  cases i with
  | haltReg _ => cases h; exact .halt _ rfl
  | trap _ _ _ => exact trap_effect h
  | haltImm _ => cases h; exact .halt _ rfl
  | movqLoad _ _ _ => exact load_effect rfl (by simp [Instr.canRaise]) (by simp [Instr.canRaise]) h
  | movzlq _ _ _ => exact load_effect rfl (by simp [Instr.canRaise]) (by simp [Instr.canRaise]) h
  | movzwq _ _ _ => exact load_effect rfl (by simp [Instr.canRaise]) (by simp [Instr.canRaise]) h
  | movzbq _ _ _ => exact load_effect rfl (by simp [Instr.canRaise]) (by simp [Instr.canRaise]) h
  | movslq _ _ _ => exact load_effect rfl (by simp [Instr.canRaise]) (by simp [Instr.canRaise]) h
  | movswq _ _ _ => exact load_effect rfl (by simp [Instr.canRaise]) (by simp [Instr.canRaise]) h
  | movsbq _ _ _ => exact load_effect rfl (by simp [Instr.canRaise]) (by simp [Instr.canRaise]) h
  | movqLoadDisp _ _ _ => exact load_effect rfl (by simp [Instr.canRaise]) (by simp [Instr.canRaise]) h
  | movzlqDisp _ _ _ => exact load_effect rfl (by simp [Instr.canRaise]) (by simp [Instr.canRaise]) h
  | movzwqDisp _ _ _ => exact load_effect rfl (by simp [Instr.canRaise]) (by simp [Instr.canRaise]) h
  | movzbqDisp _ _ _ => exact load_effect rfl (by simp [Instr.canRaise]) (by simp [Instr.canRaise]) h
  | movslqDisp _ _ _ => exact load_effect rfl (by simp [Instr.canRaise]) (by simp [Instr.canRaise]) h
  | movswqDisp _ _ _ => exact load_effect rfl (by simp [Instr.canRaise]) (by simp [Instr.canRaise]) h
  | movsbqDisp _ _ _ => exact load_effect rfl (by simp [Instr.canRaise]) (by simp [Instr.canRaise]) h
  | movqStore _ _ _ => exact store_effect rfl (by simp [Instr.canRaise]) (by simp [Instr.canRaise]) h
  | movl _ _ _ => exact store_effect rfl (by simp [Instr.canRaise]) (by simp [Instr.canRaise]) h
  | movw _ _ _ => exact store_effect rfl (by simp [Instr.canRaise]) (by simp [Instr.canRaise]) h
  | movb _ _ _ => exact store_effect rfl (by simp [Instr.canRaise]) (by simp [Instr.canRaise]) h
  | movqStoreDisp _ _ _ => exact store_effect rfl (by simp [Instr.canRaise]) (by simp [Instr.canRaise]) h
  | movlDisp _ _ _ => exact store_effect rfl (by simp [Instr.canRaise]) (by simp [Instr.canRaise]) h
  | movwDisp _ _ _ => exact store_effect rfl (by simp [Instr.canRaise]) (by simp [Instr.canRaise]) h
  | movbDisp _ _ _ => exact store_effect rfl (by simp [Instr.canRaise]) (by simp [Instr.canRaise]) h
  | addqReg _ _ _ => refine putResult_effect rfl ?_ h; exact fun _ => ⟨nofun, nofun, nofun, nofun⟩
  | subqReg _ _ _ => refine putResult_effect rfl ?_ h; exact fun _ => ⟨nofun, nofun, nofun, nofun⟩
  | mulqReg _ _ _ => exact mulInto_effect rfl rfl (by simp [Instr.canRaise]) h
  | divqReg _ _ _ => exact divInto_effect rfl (by simp [Instr.canRaise]) (by simp [Instr.canRaise]) h
  | imulqReg _ _ _ => exact signedMulInto_effect rfl rfl h
  | idivqReg _ _ _ => exact signedDivInto_effect rfl (by simp [Instr.canRaise]) (by simp [Instr.canRaise]) (by simp [Instr.canRaise]) h
  | addqImm _ _ _ => refine putResult_effect rfl ?_ h; exact fun _ => ⟨nofun, nofun, nofun, nofun⟩
  | subqImm _ _ _ => refine putResult_effect rfl ?_ h; exact fun _ => ⟨nofun, nofun, nofun, nofun⟩
  | mulqImm _ _ _ => exact mulInto_effect rfl rfl (by simp [Instr.canRaise]) h
  | divqImm _ _ _ => exact divInto_effect rfl (by simp [Instr.canRaise]) (by simp [Instr.canRaise]) h
  | imulqImm _ _ _ => exact signedMulInto_effect rfl rfl h
  | idivqImm _ _ _ => exact signedDivInto_effect rfl (by simp [Instr.canRaise]) (by simp [Instr.canRaise]) (by simp [Instr.canRaise]) h
  | jmpReg _ _ =>
    cases h
    exact .quiet _ ⟨rfl, rfl, rfl, rfl, rfl, rfl, rfl⟩
      (fun q hq => readReg_writeReg_ne s _ (by simpa [Instr.destinations] using hq)) (flagsByRow_same rfl)
      (.inr (.inr (.inr ⟨_, _, rfl⟩)))
  | jmpRel _ =>
    cases h
    exact .quiet _ ⟨rfl, rfl, rfl, rfl, rfl, rfl, rfl⟩ (fun _ _ => rfl) (flagsByRow_same rfl)
      (.inr (.inl ⟨_, rfl⟩))
  | je _ => exact jumpIf_effect h
  | jz _ => exact jumpIf_effect h
  | jne _ => exact jumpIf_effect h
  | jnz _ => exact jumpIf_effect h
  | jl _ => exact jumpIf_effect h
  | jnge _ => exact jumpIf_effect h
  | jge _ => exact jumpIf_effect h
  | jnl _ => exact jumpIf_effect h
  | jle _ => exact jumpIf_effect h
  | jng _ => exact jumpIf_effect h
  | jg _ => exact jumpIf_effect h
  | jnle _ => exact jumpIf_effect h
  | jb _ => exact jumpIf_effect h
  | jnae _ => exact jumpIf_effect h
  | jae _ => exact jumpIf_effect h
  | jnb _ => exact jumpIf_effect h
  | jbe _ => exact jumpIf_effect h
  | jna _ => exact jumpIf_effect h
  | ja _ => exact jumpIf_effect h
  | jnbe _ => exact jumpIf_effect h
  | orq _ _ _ => refine putResult_effect rfl ?_ h; exact fun _ => ⟨nofun, fun _ => rfl, fun _ => rfl, fun _ => rfl⟩
  | andq _ _ _ => refine putResult_effect rfl ?_ h; exact fun _ => ⟨nofun, fun _ => rfl, fun _ => rfl, fun _ => rfl⟩
  | shlqReg _ _ _ => exact shiftLeftInto_effect rfl rfl h
  | salqReg _ _ _ => exact shiftLeftInto_effect rfl rfl h
  | shrqReg _ _ _ => exact shiftRightInto_effect rfl h
  | sarqReg _ _ _ => exact shiftRightInto_effect rfl h
  | ldzwq _ _ => refine putResult_effect rfl ?_ h; exact fun _ => ⟨nofun, fun _ => rfl, fun _ => rfl, fun _ => rfl⟩
  | ldswq _ _ => refine putResult_effect rfl ?_ h; exact fun _ => ⟨nofun, fun _ => rfl, fun _ => rfl, fun _ => rfl⟩
  | shlqImm _ _ _ => exact shiftLeftInto_effect rfl rfl h
  | salqImm _ _ _ => exact shiftLeftInto_effect rfl rfl h
  | shrqImm _ _ _ => exact shiftRightInto_effect rfl h
  | sarqImm _ _ _ => exact shiftRightInto_effect rfl h
  | shldwq _ _ => refine putResult_effect rfl ?_ h; exact fun _ => ⟨nofun, nofun, fun _ => rfl, fun _ => rfl⟩
  | notq _ _ => refine putResult_effect rfl ?_ h; exact fun _ => ⟨nofun, fun _ => rfl, fun _ => rfl, fun _ => rfl⟩
  | getc _ => exact getc_effect rfl h
  | putcReg _ => cases h; exact .output _ ⟨_, .inl rfl⟩
  | putcImm _ => cases h; exact .output _ ⟨_, .inr rfl⟩
  | movqLoadScaled2 _ _ _ => exact load_effect rfl (by simp [Instr.canRaise]) (by simp [Instr.canRaise]) h
  | movzlqScaled2 _ _ _ => exact load_effect rfl (by simp [Instr.canRaise]) (by simp [Instr.canRaise]) h
  | movzwqScaled2 _ _ _ => exact load_effect rfl (by simp [Instr.canRaise]) (by simp [Instr.canRaise]) h
  | movzbqScaled2 _ _ _ => exact load_effect rfl (by simp [Instr.canRaise]) (by simp [Instr.canRaise]) h
  | movslqScaled2 _ _ _ => exact load_effect rfl (by simp [Instr.canRaise]) (by simp [Instr.canRaise]) h
  | movswqScaled2 _ _ _ => exact load_effect rfl (by simp [Instr.canRaise]) (by simp [Instr.canRaise]) h
  | movsbqScaled2 _ _ _ => exact load_effect rfl (by simp [Instr.canRaise]) (by simp [Instr.canRaise]) h
  | movqStoreScaled2 _ _ _ => exact store_effect rfl (by simp [Instr.canRaise]) (by simp [Instr.canRaise]) h
  | movlScaled2 _ _ _ => exact store_effect rfl (by simp [Instr.canRaise]) (by simp [Instr.canRaise]) h
  | movwScaled2 _ _ _ => exact store_effect rfl (by simp [Instr.canRaise]) (by simp [Instr.canRaise]) h
  | movbScaled2 _ _ _ => exact store_effect rfl (by simp [Instr.canRaise]) (by simp [Instr.canRaise]) h
  | movqLoadScaled4 _ _ _ => exact load_effect rfl (by simp [Instr.canRaise]) (by simp [Instr.canRaise]) h
  | movzlqScaled4 _ _ _ => exact load_effect rfl (by simp [Instr.canRaise]) (by simp [Instr.canRaise]) h
  | movzwqScaled4 _ _ _ => exact load_effect rfl (by simp [Instr.canRaise]) (by simp [Instr.canRaise]) h
  | movzbqScaled4 _ _ _ => exact load_effect rfl (by simp [Instr.canRaise]) (by simp [Instr.canRaise]) h
  | movslqScaled4 _ _ _ => exact load_effect rfl (by simp [Instr.canRaise]) (by simp [Instr.canRaise]) h
  | movswqScaled4 _ _ _ => exact load_effect rfl (by simp [Instr.canRaise]) (by simp [Instr.canRaise]) h
  | movsbqScaled4 _ _ _ => exact load_effect rfl (by simp [Instr.canRaise]) (by simp [Instr.canRaise]) h
  | movqStoreScaled4 _ _ _ => exact store_effect rfl (by simp [Instr.canRaise]) (by simp [Instr.canRaise]) h
  | movlScaled4 _ _ _ => exact store_effect rfl (by simp [Instr.canRaise]) (by simp [Instr.canRaise]) h
  | movwScaled4 _ _ _ => exact store_effect rfl (by simp [Instr.canRaise]) (by simp [Instr.canRaise]) h
  | movbScaled4 _ _ _ => exact store_effect rfl (by simp [Instr.canRaise]) (by simp [Instr.canRaise]) h
  | movqLoadScaled8 _ _ _ => exact load_effect rfl (by simp [Instr.canRaise]) (by simp [Instr.canRaise]) h
  | movzlqScaled8 _ _ _ => exact load_effect rfl (by simp [Instr.canRaise]) (by simp [Instr.canRaise]) h
  | movzwqScaled8 _ _ _ => exact load_effect rfl (by simp [Instr.canRaise]) (by simp [Instr.canRaise]) h
  | movzbqScaled8 _ _ _ => exact load_effect rfl (by simp [Instr.canRaise]) (by simp [Instr.canRaise]) h
  | movslqScaled8 _ _ _ => exact load_effect rfl (by simp [Instr.canRaise]) (by simp [Instr.canRaise]) h
  | movswqScaled8 _ _ _ => exact load_effect rfl (by simp [Instr.canRaise]) (by simp [Instr.canRaise]) h
  | movsbqScaled8 _ _ _ => exact load_effect rfl (by simp [Instr.canRaise]) (by simp [Instr.canRaise]) h
  | movqStoreScaled8 _ _ _ => exact store_effect rfl (by simp [Instr.canRaise]) (by simp [Instr.canRaise]) h
  | movlScaled8 _ _ _ => exact store_effect rfl (by simp [Instr.canRaise]) (by simp [Instr.canRaise]) h
  | movwScaled8 _ _ _ => exact store_effect rfl (by simp [Instr.canRaise]) (by simp [Instr.canRaise]) h
  | movbScaled8 _ _ _ => exact store_effect rfl (by simp [Instr.canRaise]) (by simp [Instr.canRaise]) h
  | nop => cases h; exact .quiet _ ⟨rfl, rfl, rfl, rfl, rfl, rfl, rfl⟩ (fun _ _ => rfl) (flagsByRow_same rfl) (.inl rfl)

/-- Everything a step can do: the machine was running, and the step raised a fetch or decode fault or was the
instruction's own effect. -/
theorem step_cases (h : step s = .next t) :
    s.status = .running ∧
      ((∃ f, s.fetchInstr = .error f ∧ t = s.raise f) ∨ ∃ i, s.fetchInstr = .ok i ∧ exec i s = .next t) := by
  unfold step at h
  split at h
  · cases h
  · cases h
  · refine ⟨by assumption, ?_⟩
    split at h
    · next f hf => cases h; exact .inl ⟨f, hf, rfl⟩
    · next i hi => exact .inr ⟨i, hi, h⟩

end Sys2Proof.Machine
end

