-- ==== Sys2Proof/Laws/PerInstr.lean ====
section
/-! SUPPORT. A law about every instruction as syntax, one lemma per constructor. -/

namespace Sys2Proof.Laws.CanonicalWord

/-- Every spelling has a canonical one (R94): its first mnemonic encodes to the same word and is a spelling
that the decoder answers. -/
def Statement (i : Instr) : Prop := encode i.canon = encode i ∧ i.canon.wellFormed = true

theorem haltReg (x : Byte) : Statement (.haltReg x) := ⟨rfl, rfl⟩
theorem trap (x : Byte) (y : Byte) (z : Byte) : Statement (.trap x y z) := ⟨rfl, rfl⟩
theorem haltImm (x : Byte) : Statement (.haltImm x) := ⟨rfl, rfl⟩
theorem movqLoad (x : Byte) (y : Byte) (z : Byte) : Statement (.movqLoad x y z) := ⟨rfl, rfl⟩
theorem movzlq (x : Byte) (y : Byte) (z : Byte) : Statement (.movzlq x y z) := ⟨rfl, rfl⟩
theorem movzwq (x : Byte) (y : Byte) (z : Byte) : Statement (.movzwq x y z) := ⟨rfl, rfl⟩
theorem movzbq (x : Byte) (y : Byte) (z : Byte) : Statement (.movzbq x y z) := ⟨rfl, rfl⟩
theorem movslq (x : Byte) (y : Byte) (z : Byte) : Statement (.movslq x y z) := ⟨rfl, rfl⟩
theorem movswq (x : Byte) (y : Byte) (z : Byte) : Statement (.movswq x y z) := ⟨rfl, rfl⟩
theorem movsbq (x : Byte) (y : Byte) (z : Byte) : Statement (.movsbq x y z) := ⟨rfl, rfl⟩
theorem movqLoadDisp (x : Byte) (y : Byte) (z : Byte) : Statement (.movqLoadDisp x y z) := ⟨rfl, rfl⟩
theorem movzlqDisp (x : Byte) (y : Byte) (z : Byte) : Statement (.movzlqDisp x y z) := ⟨rfl, rfl⟩
theorem movzwqDisp (x : Byte) (y : Byte) (z : Byte) : Statement (.movzwqDisp x y z) := ⟨rfl, rfl⟩
theorem movzbqDisp (x : Byte) (y : Byte) (z : Byte) : Statement (.movzbqDisp x y z) := ⟨rfl, rfl⟩
theorem movslqDisp (x : Byte) (y : Byte) (z : Byte) : Statement (.movslqDisp x y z) := ⟨rfl, rfl⟩
theorem movswqDisp (x : Byte) (y : Byte) (z : Byte) : Statement (.movswqDisp x y z) := ⟨rfl, rfl⟩
theorem movsbqDisp (x : Byte) (y : Byte) (z : Byte) : Statement (.movsbqDisp x y z) := ⟨rfl, rfl⟩
theorem movqStore (x : Byte) (y : Byte) (z : Byte) : Statement (.movqStore x y z) := ⟨rfl, rfl⟩
theorem movl (x : Byte) (y : Byte) (z : Byte) : Statement (.movl x y z) := ⟨rfl, rfl⟩
theorem movw (x : Byte) (y : Byte) (z : Byte) : Statement (.movw x y z) := ⟨rfl, rfl⟩
theorem movb (x : Byte) (y : Byte) (z : Byte) : Statement (.movb x y z) := ⟨rfl, rfl⟩
theorem movqStoreDisp (x : Byte) (y : Byte) (z : Byte) : Statement (.movqStoreDisp x y z) := ⟨rfl, rfl⟩
theorem movlDisp (x : Byte) (y : Byte) (z : Byte) : Statement (.movlDisp x y z) := ⟨rfl, rfl⟩
theorem movwDisp (x : Byte) (y : Byte) (z : Byte) : Statement (.movwDisp x y z) := ⟨rfl, rfl⟩
theorem movbDisp (x : Byte) (y : Byte) (z : Byte) : Statement (.movbDisp x y z) := ⟨rfl, rfl⟩
theorem addqReg (x : Byte) (y : Byte) (z : Byte) : Statement (.addqReg x y z) := ⟨rfl, rfl⟩
theorem subqReg (x : Byte) (y : Byte) (z : Byte) : Statement (.subqReg x y z) := ⟨rfl, rfl⟩
theorem mulqReg (x : Byte) (y : Byte) (z : Byte) : Statement (.mulqReg x y z) := ⟨rfl, rfl⟩
theorem divqReg (x : Byte) (y : Byte) (z : Byte) : Statement (.divqReg x y z) := ⟨rfl, rfl⟩
theorem imulqReg (x : Byte) (y : Byte) (z : Byte) : Statement (.imulqReg x y z) := ⟨rfl, rfl⟩
theorem idivqReg (x : Byte) (y : Byte) (z : Byte) : Statement (.idivqReg x y z) := ⟨rfl, rfl⟩
theorem addqImm (x : Byte) (y : Byte) (z : Byte) : Statement (.addqImm x y z) := ⟨rfl, rfl⟩
theorem subqImm (x : Byte) (y : Byte) (z : Byte) : Statement (.subqImm x y z) := ⟨rfl, rfl⟩
theorem mulqImm (x : Byte) (y : Byte) (z : Byte) : Statement (.mulqImm x y z) := ⟨rfl, rfl⟩
theorem divqImm (x : Byte) (y : Byte) (z : Byte) : Statement (.divqImm x y z) := ⟨rfl, rfl⟩
theorem imulqImm (x : Byte) (y : Byte) (z : Byte) : Statement (.imulqImm x y z) := ⟨rfl, rfl⟩
theorem idivqImm (x : Byte) (y : Byte) (z : Byte) : Statement (.idivqImm x y z) := ⟨rfl, rfl⟩
theorem jmpReg (x : Byte) (y : Byte) : Statement (.jmpReg x y) := ⟨rfl, rfl⟩
theorem jmpRel (xyz : Imm24) : Statement (.jmpRel xyz) := ⟨rfl, rfl⟩
theorem je (xyz : Imm24) : Statement (.je xyz) := ⟨rfl, rfl⟩
theorem jz (xyz : Imm24) : Statement (.jz xyz) := ⟨rfl, rfl⟩
theorem jne (xyz : Imm24) : Statement (.jne xyz) := ⟨rfl, rfl⟩
theorem jnz (xyz : Imm24) : Statement (.jnz xyz) := ⟨rfl, rfl⟩
theorem jl (xyz : Imm24) : Statement (.jl xyz) := ⟨rfl, rfl⟩
theorem jnge (xyz : Imm24) : Statement (.jnge xyz) := ⟨rfl, rfl⟩
theorem jge (xyz : Imm24) : Statement (.jge xyz) := ⟨rfl, rfl⟩
theorem jnl (xyz : Imm24) : Statement (.jnl xyz) := ⟨rfl, rfl⟩
theorem jle (xyz : Imm24) : Statement (.jle xyz) := ⟨rfl, rfl⟩
theorem jng (xyz : Imm24) : Statement (.jng xyz) := ⟨rfl, rfl⟩
theorem jg (xyz : Imm24) : Statement (.jg xyz) := ⟨rfl, rfl⟩
theorem jnle (xyz : Imm24) : Statement (.jnle xyz) := ⟨rfl, rfl⟩
theorem jb (xyz : Imm24) : Statement (.jb xyz) := ⟨rfl, rfl⟩
theorem jnae (xyz : Imm24) : Statement (.jnae xyz) := ⟨rfl, rfl⟩
theorem jae (xyz : Imm24) : Statement (.jae xyz) := ⟨rfl, rfl⟩
theorem jnb (xyz : Imm24) : Statement (.jnb xyz) := ⟨rfl, rfl⟩
theorem jbe (xyz : Imm24) : Statement (.jbe xyz) := ⟨rfl, rfl⟩
theorem jna (xyz : Imm24) : Statement (.jna xyz) := ⟨rfl, rfl⟩
theorem ja (xyz : Imm24) : Statement (.ja xyz) := ⟨rfl, rfl⟩
theorem jnbe (xyz : Imm24) : Statement (.jnbe xyz) := ⟨rfl, rfl⟩
theorem orq (x : Byte) (y : Byte) (z : Byte) : Statement (.orq x y z) := ⟨rfl, rfl⟩
theorem andq (x : Byte) (y : Byte) (z : Byte) : Statement (.andq x y z) := ⟨rfl, rfl⟩
theorem shlqReg (x : Byte) (y : Byte) (z : Byte) : Statement (.shlqReg x y z) := ⟨rfl, rfl⟩
theorem salqReg (x : Byte) (y : Byte) (z : Byte) : Statement (.salqReg x y z) := ⟨rfl, rfl⟩
theorem shrqReg (x : Byte) (y : Byte) (z : Byte) : Statement (.shrqReg x y z) := ⟨rfl, rfl⟩
theorem sarqReg (x : Byte) (y : Byte) (z : Byte) : Statement (.sarqReg x y z) := ⟨rfl, rfl⟩
theorem ldzwq (xy : Imm16) (z : Byte) : Statement (.ldzwq xy z) := ⟨rfl, rfl⟩
theorem ldswq (xy : Imm16) (z : Byte) : Statement (.ldswq xy z) := ⟨rfl, rfl⟩
theorem shlqImm (x : Byte) (y : Byte) (z : Byte) : Statement (.shlqImm x y z) := ⟨rfl, rfl⟩
theorem salqImm (x : Byte) (y : Byte) (z : Byte) : Statement (.salqImm x y z) := ⟨rfl, rfl⟩
theorem shrqImm (x : Byte) (y : Byte) (z : Byte) : Statement (.shrqImm x y z) := ⟨rfl, rfl⟩
theorem sarqImm (x : Byte) (y : Byte) (z : Byte) : Statement (.sarqImm x y z) := ⟨rfl, rfl⟩
theorem shldwq (xy : Imm16) (z : Byte) : Statement (.shldwq xy z) := ⟨rfl, rfl⟩
theorem notq (x : Byte) (y : Byte) : Statement (.notq x y) := ⟨rfl, rfl⟩
theorem getc (x : Byte) : Statement (.getc x) := ⟨rfl, rfl⟩
theorem putcReg (x : Byte) : Statement (.putcReg x) := ⟨rfl, rfl⟩
theorem putcImm (x : Byte) : Statement (.putcImm x) := ⟨rfl, rfl⟩
theorem movqLoadScaled2 (x : Byte) (y : Byte) (z : Byte) : Statement (.movqLoadScaled2 x y z) := ⟨rfl, rfl⟩
theorem movzlqScaled2 (x : Byte) (y : Byte) (z : Byte) : Statement (.movzlqScaled2 x y z) := ⟨rfl, rfl⟩
theorem movzwqScaled2 (x : Byte) (y : Byte) (z : Byte) : Statement (.movzwqScaled2 x y z) := ⟨rfl, rfl⟩
theorem movzbqScaled2 (x : Byte) (y : Byte) (z : Byte) : Statement (.movzbqScaled2 x y z) := ⟨rfl, rfl⟩
theorem movslqScaled2 (x : Byte) (y : Byte) (z : Byte) : Statement (.movslqScaled2 x y z) := ⟨rfl, rfl⟩
theorem movswqScaled2 (x : Byte) (y : Byte) (z : Byte) : Statement (.movswqScaled2 x y z) := ⟨rfl, rfl⟩
theorem movsbqScaled2 (x : Byte) (y : Byte) (z : Byte) : Statement (.movsbqScaled2 x y z) := ⟨rfl, rfl⟩
theorem movqStoreScaled2 (x : Byte) (y : Byte) (z : Byte) : Statement (.movqStoreScaled2 x y z) := ⟨rfl, rfl⟩
theorem movlScaled2 (x : Byte) (y : Byte) (z : Byte) : Statement (.movlScaled2 x y z) := ⟨rfl, rfl⟩
theorem movwScaled2 (x : Byte) (y : Byte) (z : Byte) : Statement (.movwScaled2 x y z) := ⟨rfl, rfl⟩
theorem movbScaled2 (x : Byte) (y : Byte) (z : Byte) : Statement (.movbScaled2 x y z) := ⟨rfl, rfl⟩
theorem movqLoadScaled4 (x : Byte) (y : Byte) (z : Byte) : Statement (.movqLoadScaled4 x y z) := ⟨rfl, rfl⟩
theorem movzlqScaled4 (x : Byte) (y : Byte) (z : Byte) : Statement (.movzlqScaled4 x y z) := ⟨rfl, rfl⟩
theorem movzwqScaled4 (x : Byte) (y : Byte) (z : Byte) : Statement (.movzwqScaled4 x y z) := ⟨rfl, rfl⟩
theorem movzbqScaled4 (x : Byte) (y : Byte) (z : Byte) : Statement (.movzbqScaled4 x y z) := ⟨rfl, rfl⟩
theorem movslqScaled4 (x : Byte) (y : Byte) (z : Byte) : Statement (.movslqScaled4 x y z) := ⟨rfl, rfl⟩
theorem movswqScaled4 (x : Byte) (y : Byte) (z : Byte) : Statement (.movswqScaled4 x y z) := ⟨rfl, rfl⟩
theorem movsbqScaled4 (x : Byte) (y : Byte) (z : Byte) : Statement (.movsbqScaled4 x y z) := ⟨rfl, rfl⟩
theorem movqStoreScaled4 (x : Byte) (y : Byte) (z : Byte) : Statement (.movqStoreScaled4 x y z) := ⟨rfl, rfl⟩
theorem movlScaled4 (x : Byte) (y : Byte) (z : Byte) : Statement (.movlScaled4 x y z) := ⟨rfl, rfl⟩
theorem movwScaled4 (x : Byte) (y : Byte) (z : Byte) : Statement (.movwScaled4 x y z) := ⟨rfl, rfl⟩
theorem movbScaled4 (x : Byte) (y : Byte) (z : Byte) : Statement (.movbScaled4 x y z) := ⟨rfl, rfl⟩
theorem movqLoadScaled8 (x : Byte) (y : Byte) (z : Byte) : Statement (.movqLoadScaled8 x y z) := ⟨rfl, rfl⟩
theorem movzlqScaled8 (x : Byte) (y : Byte) (z : Byte) : Statement (.movzlqScaled8 x y z) := ⟨rfl, rfl⟩
theorem movzwqScaled8 (x : Byte) (y : Byte) (z : Byte) : Statement (.movzwqScaled8 x y z) := ⟨rfl, rfl⟩
theorem movzbqScaled8 (x : Byte) (y : Byte) (z : Byte) : Statement (.movzbqScaled8 x y z) := ⟨rfl, rfl⟩
theorem movslqScaled8 (x : Byte) (y : Byte) (z : Byte) : Statement (.movslqScaled8 x y z) := ⟨rfl, rfl⟩
theorem movswqScaled8 (x : Byte) (y : Byte) (z : Byte) : Statement (.movswqScaled8 x y z) := ⟨rfl, rfl⟩
theorem movsbqScaled8 (x : Byte) (y : Byte) (z : Byte) : Statement (.movsbqScaled8 x y z) := ⟨rfl, rfl⟩
theorem movqStoreScaled8 (x : Byte) (y : Byte) (z : Byte) : Statement (.movqStoreScaled8 x y z) := ⟨rfl, rfl⟩
theorem movlScaled8 (x : Byte) (y : Byte) (z : Byte) : Statement (.movlScaled8 x y z) := ⟨rfl, rfl⟩
theorem movwScaled8 (x : Byte) (y : Byte) (z : Byte) : Statement (.movwScaled8 x y z) := ⟨rfl, rfl⟩
theorem movbScaled8 (x : Byte) (y : Byte) (z : Byte) : Statement (.movbScaled8 x y z) := ⟨rfl, rfl⟩
theorem nop : Statement .nop := ⟨rfl, rfl⟩

end Sys2Proof.Laws.CanonicalWord
end

