-- ==== Sys2Proof/Laws/Values.lean ====
section
/-! SUPPORT. The result values and flags of Sys2Proof/Machine/Alu.lean, Flags.lean and Operands.lean in the
spec's formulas and in BitVec's own operations. -/

namespace Sys2Proof.Machine

/-- `u(pat_64(n))` (R12). -/
theorem toNat_pattern (n : Nat) : (BitVec.ofNat 64 n).toNat = n % 2 ^ 64 := BitVec.toNat_ofNat n 64

theorem sumOf_eq_add (a b : Word) : sumOf a b = a + b := by
  apply BitVec.eq_of_toNat_eq
  simp [sumOf, BitVec.toNat_add]

theorem differenceOf_eq_sub (a b : Word) : differenceOf a b = b - a := by
  apply BitVec.eq_of_toNat_eq
  have ha := a.isLt
  have hb := b.isLt
  simp only [differenceOf, BitVec.toNat_ofInt, BitVec.toNat_sub]
  omega

theorem zeroFlag_iff (r : Word) : zeroFlag r = true ↔ r = 0 := by
  simp only [zeroFlag, decide_eq_true_eq]
  constructor
  · intro h; exact BitVec.eq_of_toNat_eq (by simpa using h)
  · rintro rfl; rfl

theorem signFlag_eq_msb (r : Word) : signFlag r = r.msb := by
  rw [BitVec.msb_eq_decide]; rfl

theorem zeroExtended8_toNat (x : Imm8) : (zeroExtended8 x).toNat = x.toNat := by
  have := x.isLt
  simp only [zeroExtended8, BitVec.toNat_setWidth]
  omega

theorem zeroExtended8_eq (x : Imm8) : zeroExtended8 x = BitVec.ofNat 64 x.toNat :=
  BitVec.eq_of_toNat_eq (by have := x.isLt; rw [zeroExtended8_toNat, BitVec.toNat_ofNat]; omega)

/-- A sign-extended immediate has the immediate's signed value. -/
theorem signExtended8_eq (x : Imm8) : signExtended8 x = BitVec.ofInt 64 x.toInt := rfl

theorem signExtended16_eq (x : Imm16) : signExtended16 x = BitVec.ofInt 64 x.toInt := rfl

theorem zeroExtended16_eq (x : Imm16) : zeroExtended16 x = BitVec.ofNat 64 x.toNat :=
  BitVec.eq_of_toNat_eq (by
    have := x.isLt
    rw [zeroExtended16, BitVec.toNat_setWidth, BitVec.toNat_ofNat])

theorem productLow_eq (a b : Word) : productLow a b = BitVec.ofNat 64 (a.toNat * b.toNat) := by
  apply BitVec.eq_of_toNat_eq
  simp [productLow]

/-- A left shift for every count (R123, R130): from 64 on the product is a multiple of 2^64. -/
theorem shiftedLeft_eq (n : Nat) (b : Word) : shiftedLeft n b = BitVec.ofNat 64 (2 ^ n * b.toNat) := by
  unfold shiftedLeft
  split
  · rfl
  · next h =>
    obtain ⟨k, rfl⟩ := Nat.exists_eq_add_of_le (Nat.not_lt.1 h)
    apply BitVec.eq_of_toNat_eq
    rw [BitVec.toNat_ofNat, pow_add, Nat.mul_assoc, Nat.mul_mod_right]
    rfl

/-- An unsigned right shift for every count (R125, R130). -/
theorem shiftedRight_eq (n : Nat) (b : Word) : shiftedRight n b = BitVec.ofNat 64 (b.toNat / 2 ^ n) := by
  unfold shiftedRight
  split
  · rfl
  · next h =>
    have h1 : b.toNat < 2 ^ n := lt_of_lt_of_le b.isLt (Nat.pow_le_pow_right (by decide) (Nat.not_lt.1 h))
    rw [Nat.div_eq_of_lt h1]
    rfl

/-- From a count of 63 on, the floor of a 64-bit signed value is 0 or -1. -/
theorem floor_of_large_count (v : Int) (h1 : -2 ^ 63 ≤ v) (h2 : v < 2 ^ 63) (n : Nat) (hn : 63 ≤ n) :
    v / (2 ^ n : Nat) = if 0 ≤ v then 0 else -1 := by
  have hp : (2 ^ 63 : Int) ≤ (2 ^ n : Nat) := by
    exact_mod_cast Nat.pow_le_pow_right (by decide) hn
  split
  · next h => exact Int.ediv_eq_zero_of_lt h (by omega)
  · next h =>
    rw [Int.ediv_eq_iff_of_pos (by omega)]
    constructor <;> omega

/-- A signed right shift for every count (R127, R130). -/
theorem shiftedRightSigned_eq (n : Nat) (b : Word) :
    shiftedRightSigned n b = BitVec.ofInt 64 (b.toInt / (2 ^ n : Nat)) := by
  unfold shiftedRightSigned
  rcases Nat.le_total n 63 with h | h
  · rw [Nat.min_eq_left h]
  · rw [Nat.min_eq_right h]
    have h1 : -2 ^ 63 ≤ b.toInt := by have := BitVec.le_toInt b; simpa using this
    have h2 : b.toInt < 2 ^ 63 := by have := BitVec.toInt_lt (x := b); simpa using this
    rw [floor_of_large_count _ h1 h2 63 le_rfl, floor_of_large_count _ h1 h2 n h]

/-- The pattern that `n` bytes in memory make is the sum of R42. -/
theorem bigEndianValue_readBytes (s : State) (a : Word) (k : Nat) :
    bigEndianValue (s.mem.readBytes a k) = s.memValue a k := by
  induction k generalizing a with
  | zero => rfl
  | succ k ih =>
    rw [Memory.readBytes, bigEndianValue, ih, Memory.length_readBytes]
    simp only [State.memValue]
    rw [Finset.sum_range_succ', Nat.add_comm]
    congr 1
    · apply Finset.sum_congr rfl
      intro i hi
      have hi' : i < k := Finset.mem_range.1 hi
      rw [address_succ]
      congr 2
      omega
    · simp

/-- The pattern that `k` bytes in memory make is below 256^k. -/
theorem memValue_lt (s : State) (a : Word) (k : Nat) : s.memValue a k < 256 ^ k := by
  rw [← bigEndianValue_readBytes]
  simpa using bigEndianValue_lt (s.mem.readBytes a k)

/-- `s` of the pattern of a number below 2^n (R9). -/
theorem toInt_ofNat_eq_signedValue {n v : Nat} (h : v < 2 ^ n) : (BitVec.ofNat n v).toInt = signedValue n v := by
  cases n with
  | zero => have : v = 0 := by simpa using h
            subst this; rfl
  | succ n =>
    have h2 : v % 2 ^ (n + 1) = v := Nat.mod_eq_of_lt h
    rw [BitVec.toInt_eq_toNat_cond, BitVec.toNat_ofNat, h2, signedValue]
    have e : 2 ^ (n + 1) = 2 * 2 ^ n := by ring
    simp only [Nat.add_sub_cancel]
    by_cases hv : v < 2 ^ n
    · rw [if_pos (by omega), if_pos hv]
    · rw [if_neg (by omega), if_neg hv]
      push_cast
      rfl

/-- `old[47:0] ‖ XY` is `u(old) * 2^16 + u(XY)` mod 2^64 (R187). -/
theorem shiftedIn_eq (old : Word) (xy : Imm16) :
    shiftedIn old xy = BitVec.ofNat 64 (old.toNat * 2 ^ 16 + xy.toNat) := by
  have := xy.isLt
  apply BitVec.eq_of_toNat_eq
  simp only [shiftedIn, BitVec.toNat_append, BitVec.extractLsb'_toNat, BitVec.toNat_ofNat, Nat.shiftRight_zero]
  rw [Nat.shiftLeft_eq, Nat.mul_comm _ (2 ^ 16), ← Nat.two_pow_add_eq_or_of_lt xy.isLt]
  omega

/-- shldwq's CF (R187). -/
theorem shldwqCarry_iff (old : Word) : shldwqCarry old = true ↔ old.toNat / 2 ^ 48 % 2 = 1 := by
  simp [shldwqCarry, BitVec.getLsbD, Nat.testBit, Nat.shiftRight_eq_div_pow]

end Sys2Proof.Machine
end

