-- ==== Sys2Proof/Tests/Slice0.lean ====
section
/-! SUPPORT. Checks of the model against spec/95_test_vectors.md, each theorem naming its vector; the decoder
against words written out from the formats of spec/30_encoding.md R62 to R74; the smoke test of WellFormed;
and for every obligation with hypotheses a state and operands that meet them. -/

namespace Sys2Proof.Tests

open Sys2Proof Sys2Proof.Machine

/-- A running machine at `ip` with the memory 0x0 to 0xFFFF of Part 2 of the vectors, each flag as `f`, and
the listed registers. -/
def machine (ip : Word) (f : Bool) (regs : List (Reg × Word)) : State :=
  regs.foldl (fun s r => s.writeReg r.1 r.2)
    { State.reset with
      ip := ip, flags := ⟨f, f, f, f⟩, platform := { defaultPlatform with regions := [⟨0, 0x10000⟩] } }

/-- The bytes `bs` put at address `a`. -/
def withBytes (s : State) (a : Word) (bs : List Byte) : State := s.setMem (s.mem.writeBytes a bs)

/-- One whole step, fetch included, with the word `w` at `%ip`. -/
def ran (w : Nat) (s : State) : Option State :=
  match step (s.withFetchWord 32 w) with
  | .next t => some t
  | .fault _ => none
  | .refused _ => none

/-- What a vector checks: run status, `%ip`, the listed registers, and ZF, CF, OF, SF. -/
def seen (rs : List Reg) (t : State) : RunStatus × Word × List Word × List Bool :=
  (t.status, t.ip, rs.map t.readReg, [t.flags.zf, t.flags.cf, t.flags.of, t.flags.sf])

/-- A machine that the platform's own choices differ in. -/
def onPlatform (p : Platform) (s : State) : State := { s with platform := p }

/-- A machine for which the environment has put host answers ready. -/
def withReplies (rs : List HostReply) (s : State) : State := s.supplyReplies rs

set_option maxRecDepth 20000

/-! ### WellFormed: every alias spelling is refused -/

theorem test_aliases_are_not_well_formed :
    ([.salqReg 1 2 3, .salqImm 1 2 3, .jz 1, .jnz 1, .jnge 1, .jnl 1, .jng 1, .jnle 1, .jnae 1, .jnb 1,
      .jna 1, .jnbe 1] : List Instr).map Instr.wellFormed = List.replicate 12 false := by decide

theorem test_first_mnemonics_are_well_formed :
    ([.shlqReg 1 2 3, .shlqImm 1 2 3, .je 1, .jne 1, .jl 1, .jge 1, .jle 1, .jg 1, .jb 1, .jae 1, .jbe 1,
      .ja 1] : List Instr).map Instr.wellFormed = List.replicate 12 true := by decide

/-! ### Decoding: a word for every opcode, `Op 01 02 03` by the row's format -/

theorem test_decode_system :
    ([0x01010203, 0x02010203, 0x09010203, 0x60010203, 0x61010203, 0x69010203, 0xFF010203] : List Nat).map
        (decodeTableWord 32) =
      ([.haltReg 1, .trap 1 2 3, .haltImm 1, .getc 1, .putcReg 1, .putcImm 1, .nop] : List Instr).map some := by decide

theorem test_decode_arith :
    ([0x30010203, 0x31010203, 0x32010203, 0x33010203, 0x34010203, 0x35010203, 0x38010203, 0x39010203,
      0x3A010203, 0x3B010203, 0x3C010203, 0x3D010203] : List Nat).map
        (decodeTableWord 32) =
      ([.addqReg 1 2 3, .subqReg 1 2 3, .mulqReg 1 2 3, .divqReg 1 2 3, .imulqReg 1 2 3, .idivqReg 1 2 3,
        .addqImm 1 2 3, .subqImm 1 2 3, .mulqImm 1 2 3, .divqImm 1 2 3, .imulqImm 1 2 3, .idivqImm 1 2 3] : List Instr).map some := by decide

theorem test_decode_logic :
    ([0x50010203, 0x51010203, 0x52010203, 0x53010203, 0x54010203, 0x5A010203, 0x5B010203, 0x5C010203,
      0x5E010203] : List Nat).map
        (decodeTableWord 32) =
      ([.orq 1 2 3, .andq 1 2 3, .shlqReg 1 2 3, .shrqReg 1 2 3, .sarqReg 1 2 3, .shlqImm 1 2 3,
        .shrqImm 1 2 3, .sarqImm 1 2 3, .notq 1 2] : List Instr).map some := by decide

theorem test_decode_loadImmediate :
    ([0x56010203, 0x57010203, 0x5D010203] : List Nat).map
        (decodeTableWord 32) =
      ([.ldzwq 0x0102 3, .ldswq 0x0102 3, .shldwq 0x0102 3] : List Instr).map some := by decide

theorem test_decode_jump :
    ([0x40010203, 0x41010203, 0x42010203, 0x43010203, 0x44010203, 0x45010203, 0x46010203, 0x47010203,
      0x48010203, 0x49010203, 0x4A010203, 0x4B010203] : List Nat).map
        (decodeTableWord 32) =
      ([.jmpReg 1 2, .jmpRel 0x010203, .je 0x010203, .jne 0x010203, .jl 0x010203, .jge 0x010203, .jle 0x010203,
        .jg 0x010203, .jb 0x010203, .jae 0x010203, .jbe 0x010203, .ja 0x010203] : List Instr).map some := by decide

theorem test_decode_load :
    ([0x10010203, 0x11010203, 0x12010203, 0x13010203, 0x15010203, 0x16010203, 0x17010203, 0x18010203,
      0x19010203, 0x1A010203, 0x1B010203, 0x1D010203, 0x1E010203, 0x1F010203] : List Nat).map
        (decodeTableWord 32) =
      ([.movqLoad 1 2 3, .movzlq 1 2 3, .movzwq 1 2 3, .movzbq 1 2 3, .movslq 1 2 3, .movswq 1 2 3,
        .movsbq 1 2 3, .movqLoadDisp 1 2 3, .movzlqDisp 1 2 3, .movzwqDisp 1 2 3, .movzbqDisp 1 2 3,
        .movslqDisp 1 2 3, .movswqDisp 1 2 3, .movsbqDisp 1 2 3] : List Instr).map some := by decide

theorem test_decode_scaledLoad :
    ([0x80010203, 0x81010203, 0x82010203, 0x83010203, 0x85010203, 0x86010203, 0x87010203, 0xA0010203,
      0xA1010203, 0xA2010203, 0xA3010203, 0xA5010203, 0xA6010203, 0xA7010203, 0xC0010203, 0xC1010203,
      0xC2010203, 0xC3010203, 0xC5010203, 0xC6010203, 0xC7010203] : List Nat).map
        (decodeTableWord 32) =
      ([.movqLoadScaled2 1 2 3, .movzlqScaled2 1 2 3, .movzwqScaled2 1 2 3, .movzbqScaled2 1 2 3,
        .movslqScaled2 1 2 3, .movswqScaled2 1 2 3, .movsbqScaled2 1 2 3, .movqLoadScaled4 1 2 3,
        .movzlqScaled4 1 2 3, .movzwqScaled4 1 2 3, .movzbqScaled4 1 2 3, .movslqScaled4 1 2 3,
        .movswqScaled4 1 2 3, .movsbqScaled4 1 2 3, .movqLoadScaled8 1 2 3, .movzlqScaled8 1 2 3,
        .movzwqScaled8 1 2 3, .movzbqScaled8 1 2 3, .movslqScaled8 1 2 3, .movswqScaled8 1 2 3,
        .movsbqScaled8 1 2 3] : List Instr).map some := by decide

theorem test_decode_store :
    ([0x20010203, 0x21010203, 0x22010203, 0x23010203, 0x28010203, 0x29010203, 0x2A010203, 0x2B010203] : List Nat).map
        (decodeTableWord 32) =
      ([.movqStore 1 2 3, .movl 1 2 3, .movw 1 2 3, .movb 1 2 3, .movqStoreDisp 1 2 3, .movlDisp 1 2 3,
        .movwDisp 1 2 3, .movbDisp 1 2 3] : List Instr).map some := by decide

theorem test_decode_scaledStore :
    ([0x90010203, 0x91010203, 0x92010203, 0x93010203, 0xB0010203, 0xB1010203, 0xB2010203, 0xB3010203,
      0xD0010203, 0xD1010203, 0xD2010203, 0xD3010203] : List Nat).map
        (decodeTableWord 32) =
      ([.movqStoreScaled2 1 2 3, .movlScaled2 1 2 3, .movwScaled2 1 2 3, .movbScaled2 1 2 3,
        .movqStoreScaled4 1 2 3, .movlScaled4 1 2 3, .movwScaled4 1 2 3, .movbScaled4 1 2 3,
        .movqStoreScaled8 1 2 3, .movlScaled8 1 2 3, .movwScaled8 1 2 3, .movbScaled8 1 2 3] : List Instr).map some := by decide

/-- VH1 to VH6, VB11, VD2, VD17, VE27, and the bytes R82 ignores. -/
theorem test_decode_refuses_undefined_opcodes :
    ([0x00000000, 0xFE010203, 0x14010203, 0x58010203, 0x88010203, 0x4C000001] : List Nat).map
      (decodeTableWord 32) = List.replicate 6 none ∧
    decodeWord 0x14010203 = .error (.illegalOpcode 0x14010203) := ⟨by decide, rfl⟩

theorem test_decode_ignores_unused_bytes :
    ([0xFF123456, 0x0905AABB, 0x400102CD, 0x5E0102AB] : List Nat).map (decodeTableWord 32) =
      ([.nop, .haltImm 5, .jmpReg 1 2, .notq 1 2] : List Instr).map some := by decide

theorem test_decode_signed_fields :
    ([0x41FFFFFE, 0x57800003, 0x3CFE0203, 0x2801F802] : List Nat).map (decodeTableWord 32) =
      ([.jmpRel (-2), .ldswq (-32768) 3, .imulqImm (-2) 2 3, .movqStoreDisp 1 (-8) 2] : List Instr).map some := by
  decide

theorem test_encode_words :
    encode (.ldswq (-2) 3) = [0x57, 0xFF, 0xFE, 0x03] ∧ encode (.jmpRel (-2)) = [0x41, 0xFF, 0xFF, 0xFE] ∧
    encode (.haltImm 5) = [0x09, 0x05, 0x00, 0x00] ∧ encode (.salqImm 1 2 3) = [0x5A, 0x01, 0x02, 0x03] := by
  decide

/-! ### One step each: arithmetic, logic, shifts, load immediate -/

/-- VA4: `addq %1, %2, %3`. -/
theorem test_addq_VA4 :
    (ran 0x30010203 (machine 0 true [(1, 0x8000000000000000), (2, 0x8000000000000000)])).map (seen [3]) =
      some (.running, 4, [0x0], [true, true, true, false]) := by decide

/-- VA11: `addq 255, %2, %3`. -/
theorem test_addq_VA11 :
    (ran 0x38FF0203 (machine 0 true [(2, 0xFFFFFFFFFFFFFFFF)])).map (seen [3]) =
      some (.running, 4, [0xFE], [false, true, false, false]) := by decide

/-- VA16: `subq %1, %2, %3`. -/
theorem test_subq_VA16 :
    (ran 0x31010203 (machine 0 true [(1, 0x1), (2, 0x8000000000000000)])).map (seen [3]) =
      some (.running, 4, [0x7FFFFFFFFFFFFFFF], [false, false, true, false]) := by decide

/-- VA22: `subq 255, %2, %3`. -/
theorem test_subq_VA22 :
    (ran 0x39FF0203 (machine 0 true [(2, 0x800000000000000A)])).map (seen [3]) =
      some (.running, 4, [0x7FFFFFFFFFFFFF0B], [false, false, true, false]) := by decide

/-- VA26: `mulq %1, %2, %3`. -/
theorem test_mulq_VA26 :
    (ran 0x32010203 (machine 0 true [(1, 0x100000000), (2, 0x100000000)])).map (seen [3, 4]) =
      some (.running, 4, [0x0, 0x1], [true, true, true, true]) := by decide

/-- VA30: `mulq %1, %2, %255`. -/
theorem test_mulq_VA30 :
    (ran 0x320102FF (machine 0 true [(1, 0x2), (2, 0x3)])).map (seen [1, 2, 3, 4]) =
      some (.faulted (.registerIndexFault 0xFF), 0, [0x2, 0x3, 0, 0], [true, true, true, true]) := by decide

/-- VA31: `mulq 3, %2, %3`. -/
theorem test_mulq_VA31 :
    (ran 0x3A030203 (machine 0 true [(2, 0x8000000000000000)])).map (seen [3, 4]) =
      some (.running, 4, [0x8000000000000000, 0x1], [true, false, false, true]) := by decide

/-- VA35: `imulq %1, %2, %3`. -/
theorem test_imulq_VA35 :
    (ran 0x34010203 (machine 0 true [(1, 0xFFFFFFFFFFFFFFFF), (2, 0xFFFFFFFFFFFFFFFF)])).map (seen [3]) =
      some (.running, 4, [0x1], [true, true, false, true]) := by decide

/-- VA41: `imulq -1, %2, %3`. -/
theorem test_imulq_VA41 :
    (ran 0x3CFF0203 (machine 0 true [(2, 0x8000000000000000)])).map (seen [3]) =
      some (.running, 4, [0x8000000000000000], [true, true, true, true]) := by decide

/-- VA45: `divq %1, %2, %4`. -/
theorem test_divq_VA45 :
    (ran 0x33010204 (machine 0 true [(1, 0xA), (2, 0x7), (3, 0x1)])).map (seen [4, 5, 6]) =
      some (.running, 4, [0x199999999999999A, 0x0, 0x3], [true, true, true, true]) := by decide

/-- VA52: `divq %1, %2, %254`. -/
theorem test_divq_VA52 :
    (ran 0x330102FE (machine 0 true [(1, 0x3), (2, 0x9), (3, 0x0)])).map (seen [1, 2, 3, 4]) =
      some (.faulted (.registerIndexFault 0xFE), 0, [0x3, 0x9, 0x0, 0], [true, true, true, true]) := by decide

/-- VA56: `divq 0, %2, %4`. -/
theorem test_divq_VA56 :
    (ran 0x3B000204 (machine 0 true [(2, 0x5), (3, 0x0)])).map (seen [2, 3, 4]) =
      some (.faulted .divideByZero, 0, [0x5, 0x0, 0], [true, true, true, true]) := by decide

/-- VA57: `divq 255, %2, %4`. -/
theorem test_divq_VA57 :
    (ran 0x3BFF0204 (machine 0 true [(2, 0x0), (3, 0x1)])).map (seen [4, 5, 6]) =
      some (.running, 4, [0x101010101010101, 0x0, 0x1], [true, true, true, true]) := by decide

/-- VA61: `idivq %1, %2, %3`. -/
theorem test_idivq_VA61 :
    (ran 0x35010203 (machine 0 true [(1, 0xFFFFFFFFFFFFFFFE), (2, 0xFFFFFFFFFFFFFFF9)])).map (seen [3, 4]) =
      some (.running, 4, [0x3, 0xFFFFFFFFFFFFFFFF], [true, true, true, true]) := by decide

/-- VA64: `idivq %1, %2, %3`. -/
theorem test_idivq_VA64 :
    (ran 0x35010203 (machine 0 true [(1, 0xFFFFFFFFFFFFFFFF), (2, 0x8000000000000000)])).map (seen [1, 2, 3, 4]) =
      some (.faulted .divideOverflow, 0, [0xFFFFFFFFFFFFFFFF, 0x8000000000000000, 0, 0], [true, true, true, true]) := by decide

/-- VA71: `idivq -128, %2, %3`. -/
theorem test_idivq_VA71 :
    (ran 0x3D800203 (machine 0 true [(2, 0x8000000000000000)])).map (seen [3, 4]) =
      some (.running, 4, [0x100000000000000, 0x0], [true, true, true, true]) := by decide

/-- VA72: `idivq 0, %2, %3`. -/
theorem test_idivq_VA72 :
    (ran 0x3D000203 (machine 0 true [(2, 0x1)])).map (seen [2, 3, 4]) =
      some (.faulted .divideByZero, 0, [0x1, 0, 0], [true, true, true, true]) := by decide

/-- VB2: `andq %1, %2, %3`. -/
theorem test_andq_VB2 :
    (ran 0x51010203 (machine 0 true [(1, 0xF0F0), (2, 0xF0F)])).map (seen [3]) =
      some (.running, 4, [0x0], [true, true, true, true]) := by decide

/-- VB7: `orq %0, %2, %3`. -/
theorem test_orq_VB7 :
    (ran 0x50000203 (machine 0 true [(2, 0x8000000000000000)])).map (seen [3]) =
      some (.running, 4, [0x8000000000000000], [false, true, true, true]) := by decide

/-- VB9: `notq %1, %2`. -/
theorem test_notq_VB9 :
    (ran 0x5E010200 (machine 0 true [(1, 0xFFFFFFFFFFFFFFFF)])).map (seen [2]) =
      some (.running, 4, [0x0], [true, true, true, true]) := by decide

/-- VB15: `shlq %1, %2, %3`. -/
theorem test_shlq_VB15 :
    (ran 0x52010203 (machine 0 true [(1, 0x3F), (2, 0x3)])).map (seen [3]) =
      some (.running, 4, [0x8000000000000000], [true, true, true, true]) := by decide

/-- VB18: `shlq %1, %2, %3`. -/
theorem test_shlq_VB18 :
    (ran 0x52010203 (machine 0 true [(1, 0x100000000), (2, 0xFFFFFFFFFFFFFFFF)])).map (seen [3]) =
      some (.running, 4, [0x0], [true, false, true, true]) := by decide

/-- VB21: `shlq 0, %2, %3`. -/
theorem test_shlq_VB21 :
    (ran 0x5A000203 (machine 0 true [(2, 0x8000000000000001)])).map (seen [3]) =
      some (.running, 4, [0x8000000000000001], [true, false, true, true]) := by decide

/-- VB26: `shrq %1, %2, %3`. -/
theorem test_shrq_VB26 :
    (ran 0x53010203 (machine 0 true [(1, 0x4), (2, 0x8000000000000010)])).map (seen [3]) =
      some (.running, 4, [0x800000000000001], [true, true, true, true]) := by decide

/-- VB31: `shrq 64, %2, %3`. -/
theorem test_shrq_VB31 :
    (ran 0x5B400203 (machine 0 true [(2, 0xFFFFFFFFFFFFFFFF)])).map (seen [3]) =
      some (.running, 4, [0x0], [true, true, true, true]) := by decide

/-- VB36: `sarq %1, %2, %3`. -/
theorem test_sarq_VB36 :
    (ran 0x54010203 (machine 0 true [(1, 0x3F), (2, 0x8000000000000000)])).map (seen [3]) =
      some (.running, 4, [0xFFFFFFFFFFFFFFFF], [true, true, true, true]) := by decide

/-- VB41: `sarq 1, %2, %3`. -/
theorem test_sarq_VB41 :
    (ran 0x5C010203 (machine 0 true [(2, 0xFFFFFFFFFFFFFFF9)])).map (seen [3]) =
      some (.running, 4, [0xFFFFFFFFFFFFFFFC], [true, true, true, true]) := by decide

/-- VC2: `ldswq -32768, %3`. -/
theorem test_ldswq_VC2 :
    (ran 0x57800003 (machine 0 true [])).map (seen [3]) =
      some (.running, 4, [0xFFFFFFFFFFFF8000], [false, true, true, true]) := by decide

/-- VC4: `ldswq 0, %3`. -/
theorem test_ldswq_VC4 :
    (ran 0x57000003 (machine 0 true [(3, 0xFFFFFFFFFFFFFFFF)])).map (seen [3]) =
      some (.running, 4, [0x0], [true, true, true, true]) := by decide

/-- VC6: `ldzwq 0xFFFF, %3`. -/
theorem test_ldzwq_VC6 :
    (ran 0x56FFFF03 (machine 0 true [])).map (seen [3]) =
      some (.running, 4, [0xFFFF], [false, true, true, true]) := by decide

/-- VC7: `ldzwq 0, %3`. -/
theorem test_ldzwq_VC7 :
    (ran 0x56000003 (machine 0 true [(3, 0xFFFFFFFFFFFFFFFF)])).map (seen [3]) =
      some (.running, 4, [0x0], [true, true, true, true]) := by decide

/-- VC10: `shldwq 0x5678, %3`. -/
theorem test_shldwq_VC10 :
    (ran 0x5D567803 (machine 0 true [(3, 0x1000000001234)])).map (seen [3]) =
      some (.running, 4, [0x12345678], [false, true, true, true]) := by decide

/-- VC13: `shldwq 0xABCD, %0`. -/
theorem test_shldwq_VC13 :
    (ran 0x5DABCD00 (machine 0 true [])).map (seen []) =
      some (.running, 4, [], [false, false, true, true]) := by decide

/-! ### nop, getc, putc, halt, trap -/

/-- VD2. -/
theorem test_nop_VD2 : (ran 0xFF123456 (machine 0x100 true [(1, 7)])).map (seen [1]) =
    some (.running, 0x104, [7], [true, true, true, true]) := by decide

/-- VD3, under both values of `GETC_UPPER` it names. -/
theorem test_getc_VD3 :
    (ran 0x60010000 ((machine 0 false [(1, 0xFFFFFFFFFFFFFFFF)]).supplyInput [0x41, 0x42])).map
      (fun t => (t.readReg 1, t.input, t.ip)) = some (0x41, [0x42], 4) ∧
    (ran 0x60010000 (onPlatform { defaultPlatform with getcUpper := .keep }
      ((machine 0 false [(1, 0xFFFFFFFFFFFFFFFF)]).supplyInput [0x41, 0x42]))).map
      (fun t => (t.readReg 1, t.input, t.ip)) = some (0xFFFFFFFFFFFFFF41, [0x42], 4) := by decide

/-- VD6: stuck, nothing changed. -/
theorem test_getc_VD6 :
    execGetc 1 (machine 8 true [(1, 7)]) = .next (machine 8 true [(1, 7)]) := rfl

/-- VD7, VD9. -/
theorem test_putc_VD7_VD9 :
    (ran 0x61010000 (machine 0 false [(1, 0x1248)])).map (fun t => (t.output, t.readReg 1)) =
      some ([0x48], 0x1248) ∧
    (ran 0x690A0000 (machine 0 false [])).map (fun t => (t.output, t.ip)) = some ([0x0A], 4) := by decide

/-- VD11, VD12, VD17. -/
theorem test_halt_VD11_VD12_VD17 :
    (ran 0x01010000 (machine 0x20 false [(1, 42)])).map (fun t => (t.status, t.ip)) = some (.halted 42, 0x20) ∧
    (ran 0x01010000 (machine 0 false [(1, 0x1FF)])).map (fun t => t.status) = some (.halted 255) ∧
    (ran 0x0905AABB (machine 0 false [])).map (fun t => t.status) = some (.halted 5) := by decide

/-- The memory of VD18: the parameter block of a write of 5 bytes at 0x2000. -/
def writeMachine : State :=
  withBytes (withBytes (machine 0 true [(1, 1), (2, 0x1000)]) 0x1000
    [0, 0, 0, 1, 0xEE, 0xEE, 0xEE, 0xEE, 0, 0, 0, 0, 0, 0, 0x20, 0, 0, 0, 0, 0, 0, 0, 0, 5])
    0x2000 [0x48, 0x65, 0x6C, 0x6C, 0x6F]

/-- VD18: all bytes taken. -/
theorem test_trap_VD18 :
    (ran 0x02010203 (withReplies [.write (.ok 5)] writeMachine)).map
      (fun t => (t.readReg 3, t.ip)) = some (5, 4) ∧
    (ran 0x02010203 (withReplies [.write (.ok 5)] writeMachine)).map (fun t => (t.hostLog, t.hostReplies)) =
      some ([.write 1 [0x48, 0x65, 0x6C, 0x6C, 0x6F] (.ok 5)], []) := by
  decide +kernel

/-- VD20: the host answers Err(9). -/
theorem test_trap_VD20 :
    (ran 0x02010203 (withReplies [.write (.err 9 (by decide))] writeMachine)).map (fun t => t.readReg 3) =
      some 0xFFFFFFFFFFFFFFF7 := by decide

/-- The memory of VD21: the parameter block of a read of 4 bytes at 0x2001. -/
def readMachine : State :=
  withBytes (withBytes (machine 0 true [(2, 0x1000)]) 0x1000
    [0, 0, 0, 0, 0, 0, 0, 0, 0, 0, 0, 0, 0, 0, 0x20, 1, 0, 0, 0, 0, 0, 0, 0, 4])
    0x2000 [0x55, 0x55, 0x55, 0x55, 0x55, 0x55, 0x55, 0x55]

/-- VD21: three of the four bytes delivered. -/
theorem test_trap_VD21 :
    (ran 0x02000203 (withReplies [.read (.ok [0x61, 0x62, 0x63])] readMachine)).map
      (fun t => (t.readReg 3, t.mem.readBytes 0x2000 8, t.hostLog)) =
    some (3, [0x55, 0x61, 0x62, 0x63, 0x55, 0x55, 0x55, 0x55], [.read 0 4 (.ok [0x61, 0x62, 0x63])]) := by
  decide

/-- VD24 to VD29: the trap faults, with no host asked and nothing stored. -/
theorem test_trap_VD24_to_VD29 :
    (ran 0x02010203 (machine 0 false [(1, 2)])).map (fun t => t.status) = some (.faulted (.unknownTrap 2)) ∧
    (ran 0x02010203 (machine 0 false [(1, 0x100000000), (2, 0x1001)])).map (fun t => t.status) =
      some (.faulted (.unknownTrap 0x100000000)) ∧
    (ran 0x02010203 (machine 0 false [(1, 1), (2, 0x1004)])).map (fun t => t.status) =
      some (.faulted (.alignmentFault 0x1004)) ∧
    (ran 0x02010203 (machine 0 false [(1, 1), (2, 0xFFF0)])).map (fun t => t.status) =
      some (.faulted (.memoryAccessFault 0xFFF0)) ∧
    (ran 0x02000203 (withBytes (machine 0 false [(2, 0x1000)]) 0x1000
      [0, 0, 0, 1, 0, 0, 0, 0, 0, 0, 0, 0, 0, 0, 0xFF, 0xFE, 0, 0, 0, 0, 0, 0, 0, 4])).map
      (fun t => (t.status, t.hostLog)) = some (.faulted (.memoryAccessFault 0x10000), []) := by decide

/-! ### Jumps -/

/-- VE11, VE15, VE16. -/
theorem test_jmp_VE11_VE15_VE16 :
    (execJmpRel 0xFFFFFE (machine 0x1010 true [])) = .next (machine 0x1008 true []) ∧
    (execJmpRel 0x800000 (machine 0x4000000 true [])) = .next (machine 0x2000000 true []) ∧
    (execJmpRel 0xFFFFFE (machine 0 true [])) = .next (machine 0xFFFFFFFFFFFFFFF8 true []) := ⟨rfl, rfl, rfl⟩

/-- VE22. -/
theorem test_jmp_VE22 : (ran 0x40010100 (machine 0x1000 true [(1, 0x2000)])).map (seen [1]) =
    some (.running, 0x2000, [0x1004], [true, true, true, true]) := by decide

/-- The conditional jumps that are taken with these flags, as the opcodes 0x42 to 0x4B. -/
def taken (f : Flags) : List Bool :=
  ([.je 3, .jne 3, .jl 3, .jge 3, .jle 3, .jg 3, .jb 3, .jae 3, .jbe 3, .ja 3] : List Instr).map fun i =>
    match exec i { machine 0x100 false [] with flags := f } with
    | .next t => t.ip == 0x10C
    | _ => false

/-- Four rows of the truth table of 2.5. -/
theorem test_conditional_jumps_truth_table :
    taken ⟨false, false, false, true⟩ =
      [false, true, true, false, true, false, false, true, false, true] ∧
    taken ⟨false, true, true, true⟩ =
      [false, true, false, true, false, true, true, false, true, false] ∧
    taken ⟨true, false, true, false⟩ =
      [true, false, true, false, true, false, false, true, true, false] ∧
    taken ⟨true, true, false, false⟩ =
      [true, false, false, true, true, false, true, false, true, false] := by decide

/-! ### Stores and loads -/

/-- VF1 to VF4: the low 8, 4, 2 and 1 bytes, big endian. -/
theorem test_stores_VF1_to_VF4 :
    ([0x20010203, 0x21010203, 0x22010203, 0x23010203] : List Nat).map (fun w =>
      (ran w (machine 0 true [(1, 0x1122334455667788), (2, 0x1000), (3, 0x10)])).map
        fun t => t.mem.readBytes 0x100F 10) =
    [some [0, 0x11, 0x22, 0x33, 0x44, 0x55, 0x66, 0x77, 0x88, 0],
     some [0, 0x55, 0x66, 0x77, 0x88, 0, 0, 0, 0, 0],
     some [0, 0x77, 0x88, 0, 0, 0, 0, 0, 0, 0], some [0, 0x88, 0, 0, 0, 0, 0, 0, 0, 0]] := by decide

/-- VF7, VF10, VF11, VF13, VF18: displacement, scales 2, 4 and 8, wrapping. -/
theorem test_stores_addresses :
    (ran 0x28018002 (machine 0 true [(1, 0x1122334455667788), (2, 0x1080)])).map
      (fun t => t.mem.readBytes 0x1000 2) = some [0x11, 0x22] ∧
    (ran 0x90010203 (machine 0 true [(1, 0x1122334455667788), (2, 0x1000), (3, 4)])).map
      (fun t => t.mem.readBytes 0x1008 2) = some [0x11, 0x22] ∧
    (ran 0xB0010203 (machine 0 true [(1, 0x1122334455667788), (2, 0x1000), (3, 4)])).map
      (fun t => t.mem.readBytes 0x1010 2) = some [0x11, 0x22] ∧
    (ran 0xD2010203 (machine 0 true [(1, 0x1122334455667788), (2, 0x1002), (3, 1)])).map
      (fun t => t.mem.readBytes 0x1008 4) = some [0, 0, 0x77, 0x88] ∧
    (ran 0xD0010203 (machine 0 true [(1, 0x1122334455667788), (2, 0x1000), (3, 0x2000000000000000)])).map
      (fun t => t.mem.readBytes 0x1000 2) = some [0x11, 0x22] := by decide

/-- VF21, VF23, VF25, VF26. -/
theorem test_stores_faults :
    (ran 0x22010203 (machine 0 true [(2, 0x1000), (3, 1)])).map (fun t => t.status) =
      some (.faulted (.alignmentFault 0x1001)) ∧
    (ran 0x20010203 (machine 0 true [(2, 0x10000)])).map (fun t => t.status) =
      some (.faulted (.memoryAccessFault 0x10000)) ∧
    (ran 0x20010203 (machine 0 true [(2, 0x10001)])).map (fun t => t.status) =
      some (.faulted (.alignmentFault 0x10001)) ∧
    (ran 0x2901FC00 (machine 0 true [])).map (fun t => t.status) =
      some (.faulted (.memoryAccessFault 0xFFFFFFFFFFFFFFFC)) := by decide

/-- The memory of 2.7. -/
def loadMachine (regs : List (Reg × Word)) : State :=
  withBytes (machine 0 true regs) 0x1000
    [0x80, 0x01, 0x02, 0x03, 0x04, 0x05, 0x06, 0xF7, 0x7F, 0xFE, 0x81, 0x00, 0xFF, 0xFF, 0xFF, 0xFF]

/-- VG1, VG2, VG3, VG5, VG6: the widths and extensions at 0x1000. -/
theorem test_loads_widths :
    ([0x10010203, 0x11010203, 0x15010203, 0x12010203, 0x16010203] : List Nat).map (fun w =>
      (ran w (loadMachine [(1, 0x1000), (3, 0xFFFFFFFFFFFFFFFF)])).map fun t => t.readReg 3) =
    [some 0x80010203040506F7, some 0x80010203, some 0xFFFFFFFF80010203, some 0x8001,
      some 0xFFFFFFFFFFFF8001] := by decide

/-- VG9, VG10, VG15, VG18, VG19, VG20: bytes, displacement, scales 2, 4 and 8. -/
theorem test_loads_addresses :
    (ran 0x13010203 (loadMachine [(1, 0x1000), (2, 7)])).map (fun t => t.readReg 3) = some 0xF7 ∧
    (ran 0x17010203 (loadMachine [(1, 0x1000), (2, 7)])).map (fun t => t.readReg 3) =
      some 0xFFFFFFFFFFFFFFF7 ∧
    (ran 0x1FFF0103 (loadMachine [(1, 0x1008)])).map (fun t => t.readReg 3) = some 0xFFFFFFFFFFFFFFF7 ∧
    (ran 0x80010203 (loadMachine [(1, 0x1000), (2, 4)])).map (fun t => t.readReg 3) =
      some 0x7FFE8100FFFFFFFF ∧
    (ran 0xA1010203 (loadMachine [(1, 0x1000), (2, 3)])).map (fun t => t.readReg 3) = some 0xFFFFFFFF ∧
    (ran 0xC6010203 (loadMachine [(1, 0x1002), (2, 1)])).map (fun t => t.readReg 3) =
      some 0xFFFFFFFFFFFF8100 := by decide

/-- VG22 (the destination is the base), VG25 (a load to `%0` is still checked), VG30. -/
theorem test_loads_corners :
    (ran 0x10010201 (loadMachine [(1, 0x1000), (2, 8)])).map (fun t => t.readReg 1) =
      some 0x7FFE8100FFFFFFFF ∧
    (ran 0x10010200 (loadMachine [(1, 0x1000), (2, 4)])).map (fun t => t.status) =
      some (.faulted (.alignmentFault 0x1004)) ∧
    (ran 0x10010203 (loadMachine [(1, 0x10000), (3, 7)])).map (fun t => (t.status, t.readReg 3)) =
      some (.faulted (.memoryAccessFault 0x10000), 7) := by decide

/-! ### Fetch, decode and the order of faults -/

/-- VH3, VH7, VH8, VH9. -/
theorem test_fetch_faults_VH3_VH7_VH8_VH9 :
    (ran 0x14010203 (machine 0 true [])).map (seen []) =
      some (.faulted (.illegalInstruction 0x14010203), 0, [], [true, true, true, true]) ∧
    (ran 0xFF000000 (machine 0x102 true [])).map (fun t => t.status) =
      some (.faulted (.alignmentFault 0x102)) ∧
    (ran 0xFF000000 (machine 0x10000 true [])).map (fun t => t.status) =
      some (.faulted (.memoryAccessFault 0x10000)) ∧
    (ran 0xFF000000 (machine 0xFFFE true [])).map (fun t => t.status) =
      some (.faulted (.alignmentFault 0xFFFE)) := by decide

/-- VH11, VH12, VH13. -/
theorem test_fault_order_VH11_VH12_VH13 :
    (ran 0x3300FF04 (machine 0 true [])).map (fun t => t.status) =
      some (.faulted (.registerIndexFault 0xFF)) ∧
    (ran 0x3D0002FF (machine 0 true [(2, 1)])).map (fun t => t.status) =
      some (.faulted (.registerIndexFault 0xFF)) ∧
    (ran 0x35010203 (machine 0 true [(2, 0x8000000000000000)])).map (fun t => t.status) =
      some (.faulted .divideByZero) := by decide

/-- VH15: a store over the next instruction, then that instruction. -/
theorem test_stored_word_is_fetched_VH15 :
    ((ran 0x21010200 (withBytes (machine 0 false [(1, 0x09070000), (2, 4)]) 4 [0xFF, 0, 0, 0])).bind
      fun t => match step t with
        | .next u => some u.status
        | _ => none) = some (.halted 7) := by decide

/-- R301, R311: a stopped machine takes no step. -/
theorem test_no_step_after_halt :
    step { machine 0 false [] with status := .halted 3 } = .fault (.machineHalted 3) := rfl
/-! ### Witnesses: for each obligation with hypotheses, a concrete state and operands that meet them, one for
each clause, at the boundary values where a clause has a range -/

/-- The word `w` at `%ip`, and nothing else. -/
def fetching (ip : Word) (w : Nat) : State := (machine ip true []).withFetchWord 32 w

theorem witness_DecodeEncodeRoundTrip :
    (Instr.addqReg 0 255 3).wellFormed = true ∧ (Instr.jmpRel 0x800000).wellFormed = true := by decide

theorem witness_EncodeDecodeRoundTrip :
    decodeFields 0x01 255 1 2 = some (.haltReg 255) ∧ decodeFields 0x69 0 1 2 = some (.putcImm 0) ∧
    decodeFields 0x40 1 2 255 = some (.jmpReg 1 2) ∧ decodeFields 0xFF 1 2 3 = some .nop ∧
    decodeFields 0x30 0 255 3 = some (.addqReg 0 255 3) := by decide

theorem witness_UndefinedOpcodesAreIllegal :
    undefinedOpcode 0x00 = true ∧ undefinedOpcode 0xFE = true ∧
    (fetching 0 0xFE010203).CanFetch ∧ (fetching 0 0xFE010203).WordAtIp 0xFE 1 2 3 ∧
    (fetching 0 0).CanFetch ∧ (fetching 0 0).WordAtIp 0 0 0 0 := by
  unfold State.CanFetch State.WordAtIp; decide

theorem witness_UnusedBytesIgnored :
    (0x01 : Byte) ∈ [(0x01 : Byte), 0x09, 0x60, 0x61, 0x69] ∧
    (0x69 : Byte) ∈ [(0x01 : Byte), 0x09, 0x60, 0x61, 0x69] ∧ (0x5E : Byte) ∈ [(0x40 : Byte), 0x5E] := by decide

theorem witness_AliasesShareMeaning :
    (Instr.jnbe 0x800000, Instr.ja 0x800000) ∈ [(Instr.jnbe 0x800000, Instr.ja 0x800000)] := by decide

theorem witness_StepRunsDecodedInstruction :
    (fetching 0xFFFC 0x30010203).CanFetch ∧ (fetching 0xFFFC 0x30010203).WordAtIp 0x30 1 2 3 ∧
    decodeFields 0x30 1 2 3 = some (.addqReg 1 2 3) ∧ (Instr.addqReg 1 2 3).wellFormed = true ∧
    encode (.addqReg 1 2 3) = [0x30, 1, 2, 3] := by
  unfold State.CanFetch State.WordAtIp; decide

theorem witness_FetchFaults :
    (machine 0x102 true []).status = .running ∧ (machine 0x102 true []).ip.toNat % 4 ≠ 0 ∧
    (machine 0x10000 true []).status = .running ∧ (machine 0x10000 true []).ip.toNat % 4 = 0 ∧
    (machine 0x10000 true []).platform.admits (machine 0x10000 true []).ip 4 = false := by decide

theorem witness_StoppedMachineTakesNoStep :
    { machine 0 true [] with status := .halted 255 }.status = .halted 255 ∧
    { machine 0 true [] with status := .faulted .divideByZero }.status = .faulted .divideByZero := ⟨rfl, rfl⟩

theorem witness_FaultsArePrecise :
    ∃ t, step (fetching 0x102 0) = .next t ∧ t.status = .faulted (.alignmentFault 0x102) := ⟨_, rfl, rfl⟩

theorem witness_FaultsByInstruction :
    (machine 0 true []).status = .running ∧
    ∃ t, exec (.mulqReg 1 2 255) (machine 0 true []) = .next t ∧ t.status = .faulted (.registerIndexFault 255) :=
  ⟨rfl, _, rfl, rfl⟩

/-- The invariant holds with memory listed and with a host exchange at the contract's bound. -/
theorem witness_StepKeepsInvariant :
    ∃ t, ({ fetching 0 0xFF000000 with hostLog := [.read 0 1 (.ok [7])] } : State).Inv ∧
      step { fetching 0 0xFF000000 with hostLog := [.read 0 1 (.ok [7])] } = .next t :=
  ⟨_, ⟨by decide, by intro e h; rw [List.mem_singleton.mp h]; exact Nat.le_refl 1⟩, rfl⟩

theorem witness_AbsentBytesNeverChange :
    ∃ t, step (fetching 0 0xFF000000) = .next t ∧
      (fetching 0 0xFF000000).platform.byteExists 0x10000 = false ∧
      ∀ l, (fetching 0 0xFF000000).platform.lastCell = some l → 0x10000 ≠ l.toNat :=
  ⟨_, rfl, by decide, nofun⟩

theorem witness_UnnamedFlagsKept :
    (machine 0 true []).platform.silentFlags = .unchanged ∧
    (∃ t, exec (.mulqReg 1 2 254) (machine 0 true []) = .next t) ∧
    (Instr.mulqReg 1 2 254).flagsWritten.1 = false ∧ (Instr.mulqReg 1 2 254).flagsWritten.2.2.2 = false ∧
    (∃ t, exec (.andq 1 2 3) (machine 0 true []) = .next t) ∧
    (Instr.andq 1 2 3).flagsWritten.2.1 = false ∧ (Instr.andq 1 2 3).flagsWritten.2.2.1 = false :=
  ⟨rfl, ⟨_, rfl⟩, rfl, rfl, ⟨_, rfl⟩, rfl, rfl⟩

theorem witness_RegisterAndMemoryFootprint :
    ∃ t, exec (.addqReg 1 2 3) (machine 0 true []) = .next t ∧ (Instr.addqReg 1 2 3).touchesMemory = false :=
  ⟨_, rfl, rfl⟩

theorem witness_DeviceFootprint :
    ∃ t, exec (.addqReg 1 2 3) (machine 0 true []) = .next t ∧ (∀ x, Instr.addqReg 1 2 3 ≠ .getc x) ∧
      (∀ x, Instr.addqReg 1 2 3 ≠ .putcReg x ∧ Instr.addqReg 1 2 3 ≠ .putcImm x) ∧
      ∀ x y z, Instr.addqReg 1 2 3 ≠ .trap x y z :=
  ⟨_, rfl, nofun, fun _ => ⟨nofun, nofun⟩, nofun⟩

theorem witness_InstructionPointerStaysAligned :
    (machine 0xFFFFFFFFFFFFFFFC true []).ip.toNat % 4 = 0 ∧ (∀ x y, Instr.nop ≠ .jmpReg x y) ∧
    ∃ t, exec .nop (machine 0xFFFFFFFFFFFFFFFC true []) = .next t := ⟨by decide, nofun, _, rfl⟩

theorem witness_AddqSum :
    (Instr.addqReg 1 2 0 = .addqReg 1 2 0 ∧
      0xFFFFFFFFFFFFFFFF = (machine 0 true [(1, 0xFFFFFFFFFFFFFFFF), (2, 1)]).readReg 1) ∧
    (Instr.addqImm 255 2 3 = .addqImm 255 2 3 ∧ (255 : Word) = BitVec.ofNat 64 (255 : Byte).toNat) ∧
    1 = (machine 0 true [(1, 0xFFFFFFFFFFFFFFFF), (2, 1)]).readReg 2 := by decide

theorem witness_SubqDifference :
    (Instr.subqReg 1 2 0 = .subqReg 1 2 0 ∧ 7 = (machine 0 true [(1, 7), (2, 5)]).readReg 1) ∧
    (Instr.subqImm 255 2 3 = .subqImm 255 2 3 ∧ (255 : Word) = BitVec.ofNat 64 (255 : Byte).toNat) ∧
    5 = (machine 0 true [(1, 7), (2, 5)]).readReg 2 := by decide

theorem witness_MulqProduct :
    6 = ((machine 0 true [(1, 2), (2, 3)]).readReg 1).toNat * ((machine 0 true [(1, 2), (2, 3)]).readReg 2).toNat ∧
    765 = (255 : Byte).toNat * ((machine 0 true [(1, 2), (2, 3)]).readReg 2).toNat ∧
    (254 : Reg) ≠ 255 ∧ (255 : Reg) = 255 ∧
    (machine 0 true [(1, 2), (2, 3)]).platform.mulqFlags = .literal := by decide

theorem witness_NeighbourRegisterFaults :
    (Instr.mulqReg 1 2 255 = .mulqReg 1 2 255 ∧ (255 : Reg) = 255) ∧
    (Instr.divqReg 1 255 3 = .divqReg 1 255 3 ∧ (255 : Reg) = 255) ∧
    (Instr.divqImm 1 254 254 = .divqImm 1 254 254 ∧ (254 : Reg) ≠ 255 ∧ 254 ≤ (254 : Reg).toNat) ∧
    (Instr.divqImm 1 254 255 = .divqImm 1 254 255 ∧ 254 ≤ (255 : Reg).toNat) := by decide

theorem witness_ImulqProduct :
    6 = (machine 0 true [(1, 6), (2, 7)]).readReg 1 ∧
    (0xFFFFFFFFFFFFFF80 : Word) = BitVec.ofInt 64 (0x80 : Byte).toInt ∧
    7 = (machine 0 true [(1, 6), (2, 7)]).readReg 2 ∧
    (42 : Word) = BitVec.ofNat 64 ((6 : Word).toNat * (7 : Word).toNat) := by decide

/-- With y = 254, z = 253; y = 255; y = 254, z = 254; a zero divisor. -/
theorem witness_DivqQuotient :
    1 = ((machine 0 true [(1, 1), (254, 7), (255, 1)]).readReg 1).toNat ∧
    2 ^ 64 + 7 = ((machine 0 true [(1, 1), (254, 7), (255, 1)]).readReg (254 + 1)).toNat * 2 ^ 64 +
      ((machine 0 true [(1, 1), (254, 7), (255, 1)]).readReg 254).toNat ∧
    ((254 : Reg) ≠ 255 ∧ (253 : Reg).toNat < 254 ∧ (1 : Nat) ≠ 0) ∧ (255 : Reg) = 255 ∧
    ((254 : Reg) ≠ 255 ∧ 254 ≤ (254 : Reg).toNat) ∧
    0 = ((machine 0 true [(1, 0)]).readReg 1).toNat ∧ 0 = (0 : Byte).toNat := by decide

theorem witness_DivideByZeroFaults :
    ((machine 0 true [(2, 9)]).readReg 1).toNat = 0 ∧ (254 : Reg) ≠ 255 ∧ (253 : Reg).toNat < 254 ∧
    (0 : Byte).toNat = 0 ∧ ((machine 0 true [(2, 9)]).readReg 1).toInt = 0 ∧ (254 : Reg) ≠ 255 ∧
    (0 : Byte).toInt = 0 := by decide

/-- Quotient 3; -2^63 by -1 under both values of `IDIVQ_OVERFLOW`; register 255; a zero divisor. -/
theorem witness_IdivqQuotient :
    (2 = ((machine 0 true [(1, 2), (2, 7)]).readReg 1).toInt ∧
      7 = ((machine 0 true [(1, 2), (2, 7)]).readReg 2).toInt ∧ (1 : Int) = (if (0 : Int) < 7 * 2 then 1 else -1) ∧
      (3 : Int) = 1 * (((7 : Int).natAbs / (2 : Int).natAbs : Nat) : Int) ∧ (254 : Reg) ≠ 255 ∧ (2 : Int) ≠ 0 ∧
      (3 : Int) ≠ 2 ^ 63) ∧
    (-1 = (0xFF : Byte).toInt ∧ -2 ^ 63 = ((machine 0 true [(2, 0x8000000000000000)]).readReg 2).toInt ∧
      (1 : Int) = (if (0 : Int) < -2 ^ 63 * -1 then 1 else -1) ∧
      (2 ^ 63 : Int) = 1 * (((-2 ^ 63 : Int).natAbs / (-1 : Int).natAbs : Nat) : Int) ∧
      (machine 0 true [(2, 0x8000000000000000)]).platform.idivqOverflow = .fault ∧
      (onPlatform { defaultPlatform with idivqOverflow := .wrap }
        (machine 0 true [(2, 0x8000000000000000)])).platform.idivqOverflow = .wrap) ∧
    (255 : Reg) = 255 ∧ 0 = ((machine 0 true [(2, 7)]).readReg 1).toInt := by decide +kernel

theorem witness_IdivqOverflowCase :
    ((machine 0 true [(1, 0xFFFFFFFFFFFFFFFF), (2, 0x8000000000000000)]).readReg 1).toInt = -1 ∧
    ((machine 0 true [(1, 0xFFFFFFFFFFFFFFFF), (2, 0x8000000000000000)]).readReg 2).toInt = -2 ^ 63 ∧
    (254 : Reg) ≠ 255 ∧
    (machine 0 true [(1, 0xFFFFFFFFFFFFFFFF), (2, 0x8000000000000000)]).platform.idivqOverflow = .fault ∧
    (onPlatform { defaultPlatform with idivqOverflow := .wrap }
      (machine 0 true [(1, 0xFFFFFFFFFFFFFFFF), (2, 0x8000000000000000)])).platform.idivqOverflow = .wrap := by
  decide

/-- The register form with registers 254 and 255, the immediate form with `%0`, and the immediate form with divisor
-1 on the dividend next to the one that overflows. -/
theorem witness_IdivqRoundsTowardZero :
    (2 = ((machine 0 true [(1, 2), (2, 0x8000000000000000)]).readReg 1).toInt ∧
      -2 ^ 63 = ((machine 0 true [(1, 2), (2, 0x8000000000000000)]).readReg 2).toInt ∧ (254 : Reg) ≠ 255 ∧
      (2 : Int) ≠ 0 ∧ ¬((-2 ^ 63 : Int) = -2 ^ 63 ∧ (2 : Int) = -1) ∧ (254 : Reg) ≠ 0) ∧
    (-128 = (0x80 : Byte).toInt ∧ (0 : Reg) ≠ 255 ∧ (-128 : Int) ≠ 0 ∧
      ¬((-2 ^ 63 : Int) = -2 ^ 63 ∧ (-128 : Int) = -1) ∧ (0 : Reg) = 0) ∧
    (-1 = (0xFF : Byte).toInt ∧
      -2 ^ 63 + 1 = ((machine 0 true [(2, 0x8000000000000001)]).readReg 2).toInt ∧
      ¬((-2 ^ 63 + 1 : Int) = -2 ^ 63 ∧ (-1 : Int) = -1)) := by decide

theorem witness_CompareThenJump :
    7 = (machine 0 true [(1, 7), (2, 5)]).readReg 1 ∧ 5 = (machine 0 true [(1, 7), (2, 5)]).readReg 2 ∧
    (255 : Word) = BitVec.ofNat 64 (255 : Byte).toNat ∧
    (Instr.jb 0x800000 = .jb 0x800000 ∧ (True ↔ (5 : Word).toNat < (7 : Word).toNat)) := by decide

theorem witness_BitwiseLogic :
    ∃ (i : Instr) (d : Reg) (bit : Nat → Bool), i = .notq 1 2 ∧ d = 2 ∧
      bit = fun k => !((machine 0 true [(1, 0xFFFFFFFF)]).readReg 1).getLsbD k := ⟨_, _, _, rfl, rfl, rfl⟩

theorem witness_ShiftLeft :
    63 = ((machine 0 true [(1, 63), (2, 3)]).readReg 1).toNat ∧ 63 < 64 ∧
    64 = ((machine 0 true [(1, 64), (2, 3)]).readReg 1).toNat ∧ 64 ≤ 64 ∧ 255 = (255 : Byte).toNat ∧
    (machine 0 true [(1, 63), (2, 3)]).platform.silentFlags = .unchanged := by decide

theorem witness_RightShifts :
    (0x0800000000000001 : Word) =
      BitVec.ofNat 64 (((machine 0 true [(1, 4), (2, 0x8000000000000010)]).readReg 2).toNat /
        2 ^ ((machine 0 true [(1, 4), (2, 0x8000000000000010)]).readReg 1).toNat) ∧
    (0xF800000000000001 : Word) =
      BitVec.ofInt 64 (((machine 0 true [(2, 0x8000000000000010)]).readReg 2).toInt / (2 ^ (4 : Byte).toNat : Nat)) := by
  decide

theorem witness_LoadImmediateWord :
    (0x8000 : Imm16) = (0x80 : Byte) ++ (0 : Byte) ∧ (-32768 : Int) = (0x8000 : Imm16).toInt ∧
    (32768 : Int) = ((0x8000 : Imm16).toNat : Int) := by decide

theorem witness_ShiftInWord : (0x5678 : Imm16) = (0x56 : Byte) ++ (0x78 : Byte) := by decide

theorem witness_LongConstant :
    (0x123456789ABCDEF0 : Word) = (0x1234 : Imm16) ++ (0x5678 : Imm16) ++ (0x9ABC : Imm16) ++ (0xDEF0 : Imm16) ∧
    (255 : Reg) ≠ 0 := by decide

theorem witness_GetcConsumesByte :
    ((machine 0 true [(1, 7)]).supplyInput [0x41, 0x42]).input = 0x41 :: [0x42] ∧ (1 : Reg) ≠ 0 ∧
    ((machine 0 true [(1, 7)]).supplyInput [0x41, 0x42]).platform.getcUpper = .zero ∧
    (onPlatform { defaultPlatform with getcUpper := .keep }
      ((machine 0 true [(1, 7)]).supplyInput [0x41, 0x42])).platform.getcUpper = .keep := by decide

theorem witness_GetcWaits : (machine 0 true [(1, 7)]).input = [] := by decide

theorem witness_PutcAppends :
    (0x48 : Byte) = BitVec.ofNat 8 (((machine 0 true [(1, 0x1248)]).readReg 1).toNat % 2 ^ 8) := by decide

theorem witness_HaltStops :
    (machine 0 true [(1, 0x1FF)]).mem.wf = true ∧
    (0xFF : Byte) = BitVec.ofNat 8 (((machine 0 true [(1, 0x1FF)]).readReg 1).toNat % 2 ^ 8) ∧
    (machine 0 true [(1, 0x1FF)]).platform.lastCell = none ∧
    (onPlatform { defaultPlatform with lastCell := some 0xFFFFFFFFFFFFFFFF } (machine 0 true [])).platform.lastCell =
      some 0xFFFFFFFFFFFFFFFF := by decide

/-- An admitted block at the end of memory, a misaligned one, and one that ends 8 bytes too late. -/
theorem witness_TrapBlockLayout :
    (0xFFE8 = (machine 0 true [(2, 0xFFE8)]).readReg 2 ∧ (0xFFE8 : Word).toNat % 8 = 0 ∧
      (machine 0 true [(2, 0xFFE8)]).platform.admits 0xFFE8 24 = true) ∧
    (((machine 0 true [(1, 1), (2, 0x1004)]).readReg 1).toNat < 2 ∧ (0x1004 : Word).toNat % 8 ≠ 0) ∧
    (((machine 0 true [(1, 1), (2, 0xFFF0)]).readReg 1).toNat < 2 ∧ (0xFFF0 : Word).toNat % 8 = 0 ∧
      (machine 0 true [(1, 1), (2, 0xFFF0)]).platform.admits 0xFFF0 24 = false) := by decide

/-- All memory exists, and the platform admits the one block that wraps at 2^64-8. -/
def wrappingMachine : State :=
  withBytes (onPlatform { defaultPlatform with wrappingRanges := [(0xFFFFFFFFFFFFFFF8, 24)] }
    (machine 0x100 true [(1, 1), (2, 0xFFFFFFFFFFFFFFF8)])) 0xFFFFFFFFFFFFFFF8
    [0, 0, 0, 1, 0, 0, 0, 0, 0, 0, 0, 0, 0, 0, 0x20, 0, 0, 0, 0, 0, 0, 0, 0, 5]

/-- R53: a range that wraps is admitted where the platform says so, and by default is not. -/
theorem test_wrappingBlock :
    wrappingMachine.paramBlock 0xFFFFFFFFFFFFFFF8 = .ok ⟨1, 0x2000, 5⟩ ∧
    wrappingMachine.platform.admits 0xFFFFFFFFFFFFFFF0 24 = false ∧
    defaultPlatform.admits 0xFFFFFFFFFFFFFFF8 24 = false := ⟨rfl, by decide, by decide⟩

/-- A read whose buffer all exists and for which the host has three bytes, or an error, ready. -/
theorem witness_TrapReadTransfers :
    (readMachine.readReg 0).toNat = 0 ∧
    readMachine.paramBlock (readMachine.readReg 2) = .ok ⟨0, 0x2001, 4⟩ ∧ readMachine.mem.wf = true ∧
    readMachine.BufferAdmitted 0x2001 4 ∧
    (withReplies [.read (.ok [0x61, 0x62, 0x63])] readMachine).readReply 0 4 = .ok [0x61, 0x62, 0x63] ∧
    (withReplies [.read (.err 9 (by decide))] readMachine).readReply 0 4 = .err 9 (by decide) := by
  refine ⟨by decide, rfl, by decide, ?_, rfl, rfl⟩
  unfold State.BufferAdmitted; decide

/-- A read or a write whose buffer's third byte is the first that does not exist. -/
def shortMachine (n : Word) : State :=
  withBytes (machine 0 true [(1, n), (2, 0x1000)]) 0x1000
    [0, 0, 0, 1, 0, 0, 0, 0, 0, 0, 0, 0, 0, 0, 0xFF, 0xFE, 0, 0, 0, 0, 0, 0, 0, 4]

theorem witness_TrapReadTransfers_absent_byte :
    ((shortMachine 0).readReg 1).toNat = 0 ∧
    (shortMachine 0).paramBlock ((shortMachine 0).readReg 2) = .ok ⟨1, 0xFFFE, 4⟩ ∧ 2 < 4 ∧
    (shortMachine 0).BufferAdmitted 0xFFFE 2 ∧
    (shortMachine 0).platform.admits (0xFFFE + BitVec.ofNat 64 2) 1 = false := by
  refine ⟨by decide, rfl, by decide, ?_, by decide⟩
  unfold State.BufferAdmitted; decide

theorem witness_TrapWriteTransfers :
    (writeMachine.readReg 1).toNat = 1 ∧
    writeMachine.paramBlock (writeMachine.readReg 2) = .ok ⟨1, 0x2000, 5⟩ ∧
    writeMachine.BufferAdmitted 0x2000 5 ∧
    [0x48, 0x65, 0x6C, 0x6C, 0x6F] =
      (List.range 5).map (fun j => writeMachine.mem.read ((0x2000 : Word) + BitVec.ofNat 64 j).toNat) ∧
    (withReplies [.write (.ok 2)] writeMachine).writeReply 1 [0x48, 0x65, 0x6C, 0x6C, 0x6F] = .ok 2 := by
  refine ⟨by decide, rfl, ?_, by decide, rfl⟩
  unfold State.BufferAdmitted; decide

theorem witness_TrapWriteTransfers_absent_byte :
    ((shortMachine 1).readReg 1).toNat = 1 ∧
    (shortMachine 1).paramBlock ((shortMachine 1).readReg 2) = .ok ⟨1, 0xFFFE, 4⟩ ∧ 2 < 4 ∧
    (shortMachine 1).BufferAdmitted 0xFFFE 2 ∧
    (shortMachine 1).platform.admits (0xFFFE + BitVec.ofNat 64 2) 1 = false := by
  refine ⟨by decide, rfl, by decide, ?_, by decide⟩
  unfold State.BufferAdmitted; decide

theorem witness_TrapUnknownNumber :
    2 = (machine 0 true [(1, 2)]).readReg 1 ∧ 2 ≤ (2 : Word).toNat ∧
    (2 : Word) ∉ (machine 0 true [(1, 2)]).platform.extraTraps ∧
    0x100000000 = (machine 0 true [(1, 0x100000000)]).readReg 1 := by decide

/-- A platform with a handler for trap 2, its answer put ready. -/
def handlerMachine (r : TrapReply) : State :=
  withReplies [.other r]
    (onPlatform { defaultPlatform with regions := [⟨0, 0x10000⟩], extraTraps := [2] }
      (machine 0 true [(1, 2), (2, 0x1000)]))

/-- The answer of a handler that reads one byte and writes another twice. -/
def storingReply : TrapReply := ⟨5, [0x1000], [(0x2000, 1), (0x2000, 2)]⟩

theorem witness_TrapPlatformHandler :
    2 = (handlerMachine storingReply).readReg 1 ∧ 0x1000 = (handlerMachine storingReply).readReg 2 ∧
    2 ≤ (2 : Word).toNat ∧ 2 ∈ (handlerMachine storingReply).platform.extraTraps ∧
    storingReply = (handlerMachine storingReply).otherReply 2 0x1000 ∧
    storingReply.accesses = [0x1000, 0x2000, 0x2000] ∧
    (handlerMachine storingReply).platform.admits 0x1000 1 = true ∧
    (handlerMachine storingReply).platform.admits 0x2000 1 = true ∧
    (handlerMachine storingReply).mem.wf = true := by
  refine ⟨?_, ?_, ?_, ?_, rfl, rfl, ?_, ?_, ?_⟩ <;> decide

/-- A handler that reads the first byte that does not exist, after one that does, and writes another such byte. -/
theorem witness_TrapPlatformHandler_absent_byte :
    (TrapReply.mk 5 [0xFFFF, 0x10000] [(0x10001, 1)]).accesses = [0xFFFF] ++ 0x10000 :: [0x10001] ∧
    (handlerMachine ⟨5, [0xFFFF, 0x10000], [(0x10001, 1)]⟩).platform.admits 0xFFFF 1 = true ∧
    (handlerMachine ⟨5, [0xFFFF, 0x10000], [(0x10001, 1)]⟩).platform.admits 0x10000 1 = false :=
  ⟨rfl, by decide, by decide⟩

/-- A pair that no later pair overwrites, in the middle of the handler's writes. -/
theorem witness_TrapPlatformHandler_overwritten :
    [((0x2000 : Word), (1 : Byte)), (0x2000, 2), (0x2001, 3)] = [(0x2000, 1)] ++ (0x2000, 2) :: [(0x2001, 3)] ∧
    ∀ c ∈ [((0x2001 : Word), (3 : Byte))], 0x2000 ≠ c.1 := by
  refine ⟨rfl, fun c h => ?_⟩
  rw [List.mem_singleton.mp h]; decide

theorem witness_JmpRelative : (0xFFFFFE : Imm24) = (0xFF : Byte) ++ (0xFF : Byte) ++ (0xFE : Byte) := by decide

theorem witness_ConditionalJumps :
    (3 : Imm24) = (0 : Byte) ++ (0 : Byte) ++ (3 : Byte) ∧
    (Instr.je 3 = .je 3 ∧ (True ↔ (machine 0 true []).flags.zf = true)) ∧
    (Instr.jnbe 3 = .jnbe 3 ∧
      (False ↔ (machine 0 true []).flags.cf = false ∧ (machine 0 true []).flags.zf = false)) := by decide

/-- The last quad that exists, a misaligned quad, the first quad that does not exist; the same for the
narrower widths, and for stores. -/
theorem witness_LoadQuad :
    scaledAddress 1 ((machine 0 true [(1, 0xFFF8)]).readReg 1) ((machine 0 true [(1, 0xFFF8)]).readReg 2) =
      0xFFF8 ∧
    ((0xFFF8 : Word).toNat % 8 = 0 ∧ (machine 0 true []).platform.admits 0xFFF8 8 = true) ∧
    (0xFFF9 : Word).toNat % 8 ≠ 0 ∧
    ((0x10000 : Word).toNat % 8 = 0 ∧ (machine 0 true []).platform.admits 0x10000 8 = false) := by decide

theorem witness_LoadLong :
    scaledAddress 4 ((machine 0 true [(1, 0xFFF0), (2, 3)]).readReg 1)
      ((machine 0 true [(1, 0xFFF0), (2, 3)]).readReg 2) = 0xFFFC ∧
    ((0xFFFC : Word).toNat % 4 = 0 ∧ (machine 0 true []).platform.admits 0xFFFC 4 = true) ∧
    (0xFFFE : Word).toNat % 4 ≠ 0 ∧
    ((0x10000 : Word).toNat % 4 = 0 ∧ (machine 0 true []).platform.admits 0x10000 4 = false) := by decide

theorem witness_LoadWord :
    displacedAddress 0xFE ((machine 0 true [(2, 0x10000)]).readReg 2) = 0xFFFE ∧
    ((0xFFFE : Word).toNat % 2 = 0 ∧ (machine 0 true []).platform.admits 0xFFFE 2 = true) ∧
    (0xFFFF : Word).toNat % 2 ≠ 0 ∧
    ((0x10000 : Word).toNat % 2 = 0 ∧ (machine 0 true []).platform.admits 0x10000 2 = false) := by decide

theorem witness_LoadByte :
    scaledAddress 8 ((machine 0 true [(1, 0xFFF7), (2, 1)]).readReg 1)
      ((machine 0 true [(1, 0xFFF7), (2, 1)]).readReg 2) = 0xFFFF ∧
    ((0xFFFF : Word).toNat % 1 = 0 ∧ (machine 0 true []).platform.admits 0xFFFF 1 = true) ∧
    ((0x10000 : Word).toNat % 1 = 0 ∧ (machine 0 true []).platform.admits 0x10000 1 = false) := by decide

theorem witness_StoreQuadAndLong :
    (machine 0 true [(2, 0xFFF8)]).mem.wf = true ∧
    scaledAddress 1 ((machine 0 true [(2, 0xFFF8)]).readReg 2) ((machine 0 true [(2, 0xFFF8)]).readReg 3) =
      0xFFF8 ∧
    ((0xFFF8 : Word).toNat % 8 = 0 ∧ (machine 0 true []).platform.admits 0xFFF8 8 = true) ∧
    ((0xFFFC : Word).toNat % 4 = 0 ∧ (machine 0 true []).platform.admits 0xFFFC 4 = true) ∧
    (0xFFFC : Word).toNat % 8 ≠ 0 ∧ (0xFFFE : Word).toNat % 4 ≠ 0 ∧
    ((0x10000 : Word).toNat % 8 = 0 ∧ (machine 0 true []).platform.admits 0x10000 8 = false ∧
      (machine 0 true []).platform.admits 0x10000 4 = false) := by decide

theorem witness_StoreWordAndByte :
    (machine 0 true [(3, 0xFFFE)]).mem.wf = true ∧
    displacedAddress 0 ((machine 0 true [(3, 0xFFFE)]).readReg 3) = 0xFFFE ∧
    ((0xFFFE : Word).toNat % 2 = 0 ∧ (machine 0 true []).platform.admits 0xFFFE 2 = true) ∧
    ((0xFFFF : Word).toNat % 1 = 0 ∧ (machine 0 true []).platform.admits 0xFFFF 1 = true) ∧
    (0xFFFF : Word).toNat % 2 ≠ 0 ∧
    ((0x10000 : Word).toNat % 2 = 0 ∧ (machine 0 true []).platform.admits 0x10000 2 = false ∧
      (machine 0 true []).platform.admits 0x10000 1 = false) := by decide

theorem witness_StoreThenLoad :
    (machine 0 true [(2, 0xFFF8)]).mem.wf = true ∧ (255 : Reg) ≠ 0 ∧
    0xFFF8 = displacedAddress 0 ((machine 0 true [(2, 0xFFF8)]).readReg 2) ∧ (0xFFF8 : Word).toNat % 8 = 0 ∧
    (machine 0 true [(2, 0xFFF8)]).platform.admits 0xFFF8 8 = true := by decide

theorem witness_StoreSeenByFetch :
    (machine 0 true [(1, 0xABCD30010203), (2, 4)]).mem.wf = true ∧
    (machine 0 true [(1, 0xABCD30010203), (2, 4)]).CanFetch ∧
    (machine 0 true [(1, 0xABCD30010203), (2, 4)]).readReg 2 =
      (machine 0 true [(1, 0xABCD30010203), (2, 4)]).nextIp ∧
    (machine 0 true [(1, 0xABCD30010203), (2, 4)]).platform.admits
      (machine 0 true [(1, 0xABCD30010203), (2, 4)]).nextIp 4 = true ∧
    (Instr.addqReg 1 2 3).wellFormed = true ∧
    ((machine 0 true [(1, 0xABCD30010203), (2, 4)]).readReg 1).toNat % 2 ^ 32 =
      (encodeWord (.addqReg 1 2 3)).toNat := by
  unfold State.CanFetch; decide

end Sys2Proof.Tests
end

section
/-! Proofs about the scope of the model (spec/00_scope.md): exec answers a next state for every instruction
in every state (R1, R78, R301, R311), and the values that the spec fixes at reset (R8, R34, R53). The case
lemmas of Sys2Proof/Laws/Ops.lean name the next state in each case of a shared operation; here only that
there is one is kept. -/

namespace Sys2Proof.Machine

/-! ### Every shared operation answers a next state -/

/-- Both checks of a load answer a next state when they fail: the faulted one (R43, R301). -/
theorem load_answers_next (w : Width) (e : Extension) (a : Word) (z : Reg) (s : State) :
    ∃ t, load w e a z s = .next t := by
  rcases load_cases w e a z s with ⟨-, misaligned⟩ | ⟨-, -, loaded⟩ | ⟨-, -, absent⟩
  · exact ⟨_, misaligned⟩
  · exact ⟨_, loaded⟩
  · exact ⟨_, absent⟩

/-- Both checks of a store answer a next state when they fail: the faulted one (R44, R301). -/
theorem store_answers_next (w : Width) (a v : Word) (s : State) : ∃ t, store w a v s = .next t := by
  rcases store_cases w a v s with ⟨-, misaligned⟩ | ⟨-, -, stored⟩ | ⟨-, -, absent⟩
  · exact ⟨_, misaligned⟩
  · exact ⟨_, stored⟩
  · exact ⟨_, absent⟩

/-- A conditional jump answers a next state whether it is taken or not (R163). -/
theorem jumpIf_answers_next (c : Condition) (o : Imm24) (s : State) : ∃ t, jumpIf c o s = .next t := by
  rcases jumpIf_cases c o s with ⟨-, taken⟩ | ⟨-, notTaken⟩
  · exact ⟨_, taken⟩
  · exact ⟨_, notTaken⟩

/-- mulq answers a next state for every register byte, 255 included (R104, R307). -/
theorem mulInto_answers_next (a : Word) (y z : Reg) (s : State) : ∃ t, mulInto a y z s = .next t := by
  rcases mulInto_cases a y z s with ⟨-, badIndex⟩ | ⟨-, multiplied⟩
  · exact ⟨_, badIndex⟩
  · exact ⟨_, multiplied⟩

/-- divq answers a next state for every register byte and divisor (R108, R305, R307). -/
theorem divInto_answers_next (d : Nat) (y z : Reg) (s : State) : ∃ t, divInto d y z s = .next t := by
  rcases divInto_cases d y z s _ rfl with
    ⟨-, badDividend⟩ | ⟨-, -, badTarget⟩ | ⟨-, -, -, byZero⟩ | ⟨-, -, -, divided⟩
  · exact ⟨_, badDividend⟩
  · exact ⟨_, badTarget⟩
  · exact ⟨_, byZero⟩
  · exact ⟨_, divided⟩

/-- idivq answers a next state for every register byte, divisor and quotient (R110, R305, R306, R307). -/
theorem signedDivInto_answers_next (d : Int) (y z : Reg) (s : State) :
    ∃ t, signedDivInto d y z s = .next t := by
  rcases signedDivInto_cases d y z s _ rfl with
    ⟨-, badTarget⟩ | ⟨-, -, byZero⟩ | ⟨-, -, -, overflow⟩ | ⟨-, -, -, divided⟩
  · exact ⟨_, badTarget⟩
  · exact ⟨_, byZero⟩
  · exact ⟨_, overflow⟩
  · exact ⟨_, divided⟩

/-- getc answers a next state whether or not there is an input byte (R141, R142): a waiting machine's is the
unchanged one. -/
theorem execGetc_answers_next (x : Reg) (s : State) : ∃ t, execGetc x s = .next t := by
  cases hin : s.input with
  | nil => exact ⟨s, by simp [execGetc, hin]⟩
  | cons c rest => exact ⟨(s.consumeInput x c rest).advance, by simp [execGetc, hin]⟩

/-- trap 0 answers a next state (R149). -/
theorem trapRead_answers_next (p : Word) (z : Reg) (s : State) : ∃ t, trapRead p z s = .next t := by
  rcases trapRead_cases p z s with ⟨_, -, badBlock⟩ | ⟨_, _, -, -, absent⟩ | ⟨_, _, -, -, -, completed⟩
  · exact ⟨_, badBlock⟩
  · exact ⟨_, absent⟩
  · exact ⟨_, completed⟩

/-- trap 1 answers a next state (R150). -/
theorem trapWrite_answers_next (p : Word) (z : Reg) (s : State) : ∃ t, trapWrite p z s = .next t := by
  rcases trapWrite_cases p z s with
    ⟨_, -, badBlock⟩ | ⟨_, _, -, -, absent⟩ | ⟨_, _, _, -, -, -, -, completed⟩
  · exact ⟨_, badBlock⟩
  · exact ⟨_, absent⟩
  · exact ⟨_, completed⟩

/-- A further trap number answers a next state, with a handler or without one (R155, R308). -/
theorem trapOther_answers_next (n p : Word) (z : Reg) (s : State) : ∃ t, trapOther n p z s = .next t := by
  rcases trapOther_cases n p z s with ⟨-, unknown⟩ | ⟨_, -, -, absent⟩ | ⟨_, -, -, -, completed⟩
  · exact ⟨_, unknown⟩
  · exact ⟨_, absent⟩
  · exact ⟨_, completed⟩

/-- trap answers a next state for every trap number (R148). -/
theorem execTrap_answers_next (x y z : Reg) (s : State) : ∃ t, execTrap x y z s = .next t := by
  unfold execTrap
  by_cases h0 : s.readReg x = 0
  · simpa only [if_pos h0] using trapRead_answers_next (s.readReg y) z s
  by_cases h1 : s.readReg x = 1
  · simpa only [if_neg h0, if_pos h1] using trapWrite_answers_next (s.readReg y) z s
  · simpa only [if_neg h0, if_neg h1] using trapOther_answers_next (s.readReg x) (s.readReg y) z s

/-! ### The obligations -/

/-- Settles O12: each instruction is a shared operation that answers a next state; those of the last case
have no branch at all. -/
theorem everyInstructionHasNextState : Obligations.EveryInstructionHasNextState := by
  intro i s
  cases i with
  | trap _ _ _ => exact execTrap_answers_next ..
  | movqLoad _ _ _ | movzlq _ _ _ | movzwq _ _ _ | movzbq _ _ _ | movslq _ _ _ | movswq _ _ _
    | movsbq _ _ _ | movqLoadDisp _ _ _ | movzlqDisp _ _ _ | movzwqDisp _ _ _ | movzbqDisp _ _ _
    | movslqDisp _ _ _ | movswqDisp _ _ _ | movsbqDisp _ _ _ | movqLoadScaled2 _ _ _
    | movzlqScaled2 _ _ _ | movzwqScaled2 _ _ _ | movzbqScaled2 _ _ _ | movslqScaled2 _ _ _
    | movswqScaled2 _ _ _ | movsbqScaled2 _ _ _ | movqLoadScaled4 _ _ _ | movzlqScaled4 _ _ _
    | movzwqScaled4 _ _ _ | movzbqScaled4 _ _ _ | movslqScaled4 _ _ _ | movswqScaled4 _ _ _
    | movsbqScaled4 _ _ _ | movqLoadScaled8 _ _ _ | movzlqScaled8 _ _ _ | movzwqScaled8 _ _ _
    | movzbqScaled8 _ _ _ | movslqScaled8 _ _ _ | movswqScaled8 _ _ _ | movsbqScaled8 _ _ _
    => exact load_answers_next ..
  | movqStore _ _ _ | movl _ _ _ | movw _ _ _ | movb _ _ _ | movqStoreDisp _ _ _ | movlDisp _ _ _
    | movwDisp _ _ _ | movbDisp _ _ _ | movqStoreScaled2 _ _ _ | movlScaled2 _ _ _ | movwScaled2 _ _ _
    | movbScaled2 _ _ _ | movqStoreScaled4 _ _ _ | movlScaled4 _ _ _ | movwScaled4 _ _ _
    | movbScaled4 _ _ _ | movqStoreScaled8 _ _ _ | movlScaled8 _ _ _ | movwScaled8 _ _ _
    | movbScaled8 _ _ _ => exact store_answers_next ..
  | mulqReg _ _ _ | mulqImm _ _ _ => exact mulInto_answers_next ..
  | divqReg _ _ _ | divqImm _ _ _ => exact divInto_answers_next ..
  | idivqReg _ _ _ | idivqImm _ _ _ => exact signedDivInto_answers_next ..
  | je _ | jz _ | jne _ | jnz _ | jl _ | jnge _ | jge _ | jnl _ | jle _ | jng _ | jg _ | jnle _ | jb _
    | jnae _ | jae _ | jnb _ | jbe _ | jna _ | ja _ | jnbe _ => exact jumpIf_answers_next ..
  | getc _ => exact execGetc_answers_next ..
  | haltReg _ | haltImm _ | jmpReg _ _ | jmpRel _ | addqReg _ _ _ | addqImm _ _ _ | subqReg _ _ _
    | subqImm _ _ _ | imulqReg _ _ _ | imulqImm _ _ _ | orq _ _ _ | andq _ _ _ | notq _ _ | shlqReg _ _ _
    | salqReg _ _ _ | shlqImm _ _ _ | salqImm _ _ _ | shrqReg _ _ _ | sarqReg _ _ _ | shrqImm _ _ _
    | sarqImm _ _ _ | ldzwq _ _ | ldswq _ _ | shldwq _ _ | putcReg _ | putcImm _ | nop => exact ⟨_, rfl⟩
/-- Settles O14: `%0` reads 0 in every state, and the rest are the reset state's own fields. -/
theorem resetValues : Obligations.ResetValues := by
  have parameters : State.reset.platform = defaultPlatform := rfl
  unfold Obligations.ResetValues
  rw [parameters]
  exact ⟨rfl, rfl, readReg_zero _, rfl, rfl, rfl, rfl, rfl, rfl, rfl, rfl⟩

end Sys2Proof.Machine
end

section
/-! Proofs about the state and what an instruction may do to it (spec/10_state.md): registers read as
written (R21), and the frames of registers, memory, flags, devices and `%ip` over every instruction (R26,
R28, R29, R33, R46, R58, R146). Each frame is read off `Effect`, which says once what an instruction can do
(Sys2Proof/Laws/Effects.lean); no proof here opens exec again. -/

namespace Sys2Proof.Machine

/-! ### Registers -/

/-- A getc changes no register but its destination. -/
theorem readReg_consumeInput_ne (s : State) {q x : Reg} (c : Byte) (rest : List Byte) (h : q ≠ x) :
    (s.consumeInput x c rest).readReg q = s.readReg q :=
  readReg_writeReg_ne s (getcValue s x c) h

/-- R21 for every pair of registers, `%0` included. -/
theorem readReg_writeReg (s : State) (z q : Reg) (v : Word) :
    (s.writeReg z v).readReg q = if q = z ∧ z ≠ 0 then v else s.readReg q := by
  by_cases hqz : q = z
  · subst hqz
    by_cases hq : q = 0
    · subst hq; simp
    · rw [if_pos ⟨rfl, hq⟩, readReg_writeReg_self s v hq]
  · rw [if_neg (fun h => hqz h.1), readReg_writeReg_ne s v hqz]

/-! ### Multiples of 4 -/

/-- 4 divides 2^64, so that sequential advance keeps an address aligned at the wrap too (R25). -/
theorem add_four_aligned {a : Word} (h : a.toNat % 4 = 0) : (a + 4).toNat % 4 = 0 := by
  have four : (4 : Word).toNat = 4 := rfl
  rw [BitVec.toNat_add, four]
  omega

/-- A relative target is a multiple of 4 away from the jump's own address, modulo 2^64 (R160). -/
theorem relativeTarget_aligned {a : Word} (o : Imm24) (h : a.toNat % 4 = 0) :
    (relativeTarget a o).toNat % 4 = 0 := by
  rw [relativeTarget, BitVec.toNat_ofInt]
  omega

/-- An instruction pointer moved by anything but a register jump stays aligned (R26). -/
theorem IpMoved.aligned {i : Instr} {s t : State} (hm : IpMoved i s t) (hi : ∀ x y, i ≠ .jmpReg x y)
    (hs : s.ip.toNat % 4 = 0) : t.ip.toNat % 4 = 0 := by
  rcases hm with advanced | ⟨o, jumped⟩ | stayed | ⟨x, y, linked⟩
  · rw [advanced]; exact add_four_aligned hs
  · rw [jumped]; exact relativeTarget_aligned o hs
  · rw [stayed]; exact hs
  · exact absurd linked (hi x y)

/-! ### What each effect leaves alone -/

section
variable {i : Instr} {s t : State}

/-- Only a quiet instruction writes a flag. -/
theorem Effect.flagsByRow (he : Effect i s t) : FlagsByRow i s t := by
  cases he with
  | quiet _ _ _ byRow _ => exact byRow
  | fault _ _ | store _ _ _ _ _ | halt _ _ | output _ _ | input _ _ _ _ _ | transfer _ _ _ _ _ _ _ _ _ _ _
    | handler _ _ _ _ _ _ _ _ => exact flagsByRow_same rfl

/-- A fault, a halt and a waiting getc leave `%ip` where it is; all else advances or jumps. -/
theorem Effect.ipMoved (he : Effect i s t) : IpMoved i s t := by
  cases he with
  | quiet _ _ _ _ moved => exact moved
  | fault _ _ | halt _ _ => exact .inr (.inr (.inl rfl))
  | store _ _ _ _ _ | output _ _ | input _ _ _ _ _ | transfer _ _ _ _ _ _ _ _ _ _ _
    | handler _ _ _ _ _ _ _ _ => exact .inl rfl

/-- Beside the quiet instructions, only getc and trap write a register. -/
theorem Effect.regsKept (he : Effect i s t) : s.RegsKept t i.destinations := by
  cases he with
  | quiet _ _ kept _ _ => exact kept
  | fault _ _ | store _ _ _ _ _ | halt _ _ | output _ _ => exact fun _ _ => rfl
  | input x c rest _ isGetc =>
    subst isGetc
    exact fun q hq => readReg_consumeInput_ne s c rest (List.ne_of_not_mem_cons hq)
  | transfer _ _ _ _ _ _ _ isTrap _ _ _ | handler _ _ _ _ _ isTrap _ _ =>
    obtain ⟨x, y, rfl⟩ := isTrap
    exact fun q hq => readReg_writeReg_ne _ _ (List.ne_of_not_mem_cons hq)

/-- Only a store, a halt and a trap can change memory (R46, R146). -/
theorem Effect.mem_eq (he : Effect i s t) (hm : i.touchesMemory = false) : t.mem = s.mem := by
  cases he with
  | quiet _ quiet _ _ _ => exact quiet.1
  | fault _ _ | output _ _ | input _ _ _ _ _ => rfl
  | store _ _ _ _ touches | halt _ touches => exact absurd touches (by simp [hm])
  | transfer _ _ _ _ _ _ _ isTrap _ _ _ | handler _ _ _ _ _ isTrap _ _ =>
    obtain ⟨x, y, rfl⟩ := isTrap
    cases hm

/-- The installation's parameters are constant (R8). -/
theorem Effect.platform_eq (he : Effect i s t) : t.platform = s.platform := by
  cases he with
  | quiet _ quiet _ _ _ =>
    obtain ⟨-, -, -, -, -, platform, -⟩ := quiet
    exact platform
  | fault _ _ | store _ _ _ _ _ | halt _ _ | output _ _ | input _ _ _ _ _ | transfer _ _ _ _ _ _ _ _ _ _ _
    | handler _ _ _ _ _ _ _ _ => rfl

/-- Input leaves the stream from its front, and by getc alone (R141). -/
theorem Effect.input_taken (he : Effect i s t) :
    ∃ taken, s.input = taken ++ t.input ∧ ((∀ x, i ≠ .getc x) → taken = []) := by
  cases he with
  | quiet _ quiet _ _ _ =>
    obtain ⟨-, -, input, -⟩ := quiet
    exact ⟨[], input.symm, fun _ => rfl⟩
  | input x c rest front isGetc => exact ⟨[c], front, fun other => absurd isGetc (other x)⟩
  | fault _ _ | store _ _ _ _ _ | halt _ _ | output _ _ | transfer _ _ _ _ _ _ _ _ _ _ _
    | handler _ _ _ _ _ _ _ _ => exact ⟨[], rfl, fun _ => rfl⟩

/-- Output grows at its end, and by putc alone (R152). -/
theorem Effect.output_added (he : Effect i s t) :
    ∃ added, t.output = s.output ++ added ∧ ((∀ x, i ≠ .putcReg x ∧ i ≠ .putcImm x) → added = []) := by
  cases he with
  | quiet _ quiet _ _ _ =>
    obtain ⟨-, -, -, output, -⟩ := quiet
    exact ⟨[], by simp [output], fun _ => rfl⟩
  | output b isPutc =>
    obtain ⟨x, isReg | isImm⟩ := isPutc
    · exact ⟨[b], rfl, fun other => absurd isReg (other x).1⟩
    · exact ⟨[b], rfl, fun other => absurd isImm (other x).2⟩
  | fault _ _ | store _ _ _ _ _ | halt _ _ | input _ _ _ _ _ | transfer _ _ _ _ _ _ _ _ _ _ _
    | handler _ _ _ _ _ _ _ _ => exact ⟨[], by simp, fun _ => rfl⟩

/-- The host record grows at its end, and by trap alone (R58). -/
theorem Effect.hostLog_added (he : Effect i s t) :
    ∃ events, t.hostLog = s.hostLog ++ events ∧ ((∀ x y z, i ≠ .trap x y z) → events = []) := by
  cases he with
  | quiet _ quiet _ _ _ =>
    obtain ⟨-, -, -, -, hostLog, -⟩ := quiet
    exact ⟨[], by simp [hostLog], fun _ => rfl⟩
  | transfer _ _ _ e _ z _ isTrap _ _ _ | handler _ e _ z _ isTrap _ _ =>
    obtain ⟨x, y, trapped⟩ := isTrap
    exact ⟨[e], rfl, fun other => absurd trapped (other x y z)⟩
  | fault _ _ | store _ _ _ _ _ | halt _ _ | output _ _ | input _ _ _ _ _ =>
    exact ⟨[], by simp, fun _ => rfl⟩

/-- Only trap uses up an answer put ready (log entry 16). -/
theorem Effect.hostReplies_eq (he : Effect i s t) (hi : ∀ x y z, i ≠ .trap x y z) :
    t.hostReplies = s.hostReplies := by
  cases he with
  | quiet _ quiet _ _ _ =>
    obtain ⟨-, -, -, -, -, -, hostReplies⟩ := quiet
    exact hostReplies
  | transfer _ _ _ _ _ z _ isTrap _ _ _ | handler _ _ _ z _ isTrap _ _ =>
    obtain ⟨x, y, trapped⟩ := isTrap
    exact absurd trapped (hi x y z)
  | fault _ _ | store _ _ _ _ _ | halt _ _ | output _ _ | input _ _ _ _ _ => rfl

end

/-! ### The obligations -/

/-- Settles O13: the zero register's two rules and the read after a write. -/
theorem registerReadAfterWrite : Obligations.RegisterReadAfterWrite :=
  ⟨readReg_zero, writeReg_zero, readReg_writeReg⟩

/-- Settles O18: `FlagsByRow` holds of every effect. -/
theorem unnamedFlagsKept : Obligations.UnnamedFlagsKept :=
  fun _ _ _ silent h => (exec_effect h).flagsByRow silent

/-- Settles O19: no effect writes beside the destinations, and only a store, trap or halt reaches memory. -/
theorem registerAndMemoryFootprint : Obligations.RegisterAndMemoryFootprint :=
  fun _ _ _ h => ⟨(exec_effect h).regsKept, (exec_effect h).mem_eq⟩

/-- Settles O20: the frames of the parameters, the input, the output, the host record and the host's
answers. -/
theorem deviceFootprint : Obligations.DeviceFootprint := by
  intro i s t h
  have he : Effect i s t := exec_effect h
  exact ⟨he.platform_eq, he.input_taken, he.output_added, he.hostLog_added, he.hostReplies_eq⟩

/-- Settles O21: every way but the register jump moves `%ip` by a multiple of 4. -/
theorem instructionPointerStaysAligned : Obligations.InstructionPointerStaysAligned :=
  fun _ _ _ aligned notJmpReg h => (exec_effect h).ipMoved.aligned notJmpReg aligned

/-- Settles O15: at reset the memory lists no byte and the host record no exchange. -/
theorem resetHasInvariant : Obligations.ResetHasInvariant :=
  ⟨rfl, fun _ recorded => absurd recorded List.not_mem_nil⟩

end Sys2Proof.Machine
end

section
/-! Proofs about memory (spec/20_memory.md): the canonical form that every step keeps (R40, R44), bytes that do
not exist (R53), the fetch (R45, R52, R57), big-endian values in memory (R42, R43), the effective addresses (R47
to R49), and the accesses of trap (R148, R151, R155). What a step can do is read off `step_cases` and `Effect`. -/

namespace Sys2Proof.Machine

/-! ### The invariant -/

section
variable {i : Instr} {s t : State}

/-- Every way an instruction can change memory keeps the canonical form. -/
theorem Effect.mem_wf (he : Effect i s t) (hm : s.mem.wf = true) : t.mem.wf = true := by
  cases he with
  | quiet _ quiet _ _ _ => rw [quiet.1]; exact hm
  | fault _ _ | output _ _ | input _ _ _ _ _ => exact hm
  | store a _ _ _ _ | transfer a _ _ _ _ _ _ _ _ _ _ => exact Memory.wf_writeBytes hm a _
  | halt c _ => exact wf_haltedMemory hm c
  | handler cs _ _ _ _ _ _ _ => exact Memory.wf_writeCells hm cs

/-- The one exchange that a trap adds to the record is within the host's contract (R149, R150). -/
theorem Effect.hostLog_withinContract (he : Effect i s t) (hl : ∀ e ∈ s.hostLog, HostEvent.WithinContract e) :
    ∀ e ∈ t.hostLog, HostEvent.WithinContract e := by
  cases he with
  | quiet _ quiet _ _ _ =>
    obtain ⟨-, -, -, -, hostLog, -⟩ := quiet
    rw [hostLog]; exact hl
  | fault _ _ | store _ _ _ _ _ | halt _ _ | output _ _ | input _ _ _ _ _ => exact hl
  | transfer _ _ _ e _ _ _ _ _ _ within | handler _ e _ _ _ _ _ within =>
    intro recorded mem
    rcases List.mem_append.1 mem with old | new
    · exact hl recorded old
    · rw [List.mem_singleton.1 new]; exact within

/-- An instruction keeps the invariant, in every state. -/
theorem Effect.inv (he : Effect i s t) (hs : s.Inv) : t.Inv :=
  ⟨he.mem_wf hs.1, he.hostLog_withinContract hs.2⟩

end

/-- Settles O16: a fault of the fetch changes the run status alone, and every instruction keeps the invariant. -/
theorem stepKeepsInvariant : Obligations.StepKeepsInvariant := by
  intro s t inv h
  obtain ⟨-, ⟨f, -, faulted⟩ | ⟨i, -, executed⟩⟩ := step_cases h
  · rw [faulted]; exact inv
  · exact (exec_effect executed).inv inv

/-! ### The fetch -/

/-- A fetch or decode fault is what the step of a running machine raises (R311). -/
theorem step_of_fetchInstr_error {s : State} {f : RaisedFault} (hs : s.status = .running)
    (hf : s.fetchInstr = .error f) : step s = .next (s.raise f) := by
  simp [step, hs, hf]

/-- The step of a running machine is the meaning of the instruction fetched (R311). -/
theorem step_of_fetchInstr_ok {s : State} {i : Instr} (hs : s.status = .running)
    (hi : s.fetchInstr = .ok i) : step s = exec i s := by
  simp [step, hs, hi]

/-- A fetch asks for alignment first (R52, R310). -/
theorem fetchInstr_of_misaligned {s : State} (h : s.ip.toNat % 4 ≠ 0) :
    s.fetchInstr = .error (.alignmentFault s.ip) := by
  simp [State.fetchInstr, State.fetchBytes, h]

/-- An aligned fetch asks for its four bytes to exist (R53, R310). -/
theorem fetchInstr_of_absent {s : State} (h : s.ip.toNat % 4 = 0) (ha : s.platform.admits s.ip 4 = false) :
    s.fetchInstr = .error (.memoryAccessFault s.ip) := by
  simp [State.fetchInstr, State.fetchBytes, h, ha]

/-- A good fetch gives the instruction that the four bytes at `%ip` decode to (R45, R79). -/
theorem fetchInstr_of_decode {s : State} {i : Instr} {rest : List Byte} (hc : s.CanFetch)
    (hd : decode (s.mem.readBytes s.ip 4) = .ok (i, rest)) : s.fetchInstr = .ok i := by
  obtain ⟨-, aligned, admitted⟩ := hc
  simp [State.fetchInstr, State.fetchBytes, aligned, admitted, hd]

/-- The step of a machine with a good fetch is the meaning of what its four bytes decode to (R311). -/
theorem step_of_decode {s : State} {i : Instr} {rest : List Byte} (hc : s.CanFetch)
    (hd : decode (s.mem.readBytes s.ip 4) = .ok (i, rest)) : step s = exec i s :=
  step_of_fetchInstr_ok hc.1 (fetchInstr_of_decode hc hd)

/-- The four bytes at `%ip`, as a fetch reads them. -/
theorem State.WordAtIp.readBytes_eq {s : State} {op x y z : Byte} (hw : s.WordAtIp op x y z) :
    s.mem.readBytes s.ip 4 = [op, x, y, z] := by
  obtain ⟨rfl, rfl, rfl, rfl⟩ := hw
  have two : s.ip + 1 + 1 = s.ip + 2 := BitVec.add_assoc ..
  have three : s.ip + 2 + 1 = s.ip + 3 := BitVec.add_assoc ..
  simp only [Memory.readBytes, two, three]

/-- The bytes of a well-formed instruction decode to it (R79): the map has one row for its opcode, and that
row puts the wide operands together again. -/
theorem decodeFields_operandBytes {i : Instr} (hi : i.wellFormed = true) :
    decodeFields i.opcode i.operandBytes.1 i.operandBytes.2.1 i.operandBytes.2.2 = some i := by
  cases i with
  | jz _ | jnz _ | jnge _ | jnl _ | jng _ | jnle _ | jnae _ | jnb _ | jna _ | jnbe _ | salqReg _ _ _
    | salqImm _ _ _ => cases hi
  | jmpRel o | je o | jne o | jl o | jge o | jle o | jg o | jb o | jae o | jbe o | ja o =>
    simp [Instr.opcode, Instr.operandBytes, append_bytes24]
  | ldzwq o z | ldswq o z | shldwq o z => simp [Instr.opcode, Instr.operandBytes, append_bytes16]
  | _ => rfl

/-- Decoding the bytes of a well-formed instruction gives it back. -/
theorem decode_encode {i : Instr} (hi : i.wellFormed = true) : decode (encode i) = .ok (i, []) :=
  decode_cons _ _ _ _ _ _ (decodeFields_operandBytes hi)

/-- Settles O8: the two checks of the fetch, in their order. -/
theorem fetchFaults : Obligations.FetchFaults := fun _ running =>
  ⟨fun misaligned => ⟨_, step_of_fetchInstr_error running (fetchInstr_of_misaligned misaligned), rfl⟩,
    fun aligned absent => ⟨_, step_of_fetchInstr_error running (fetchInstr_of_absent aligned absent), rfl⟩⟩

/-- Settles O7: both clauses are `step_of_decode`, the second because what the encoder writes decodes. -/
theorem stepRunsDecodedInstruction : Obligations.StepRunsDecodedInstruction := by
  refine ⟨fun s op x y z i canFetch word decodes => ?_, fun s op x y z i canFetch word wellFormed encodes => ?_⟩
  · apply step_of_decode canFetch
    rw [word.readBytes_eq]
    exact decode_cons x y z op [] i decodes
  · apply step_of_decode canFetch
    rw [word.readBytes_eq, ← encodes]
    exact decode_encode wellFormed

/-! ### Bytes that do not exist -/

/-- Bytes stored at existing addresses change no byte that does not exist. -/
theorem Memory.read_writeBytes_absent (m : Memory) (p : Platform) (a : Word) (bs : List Byte) {b : Nat}
    (hp : ∀ i, i < bs.length → p.byteExists (a + BitVec.ofNat 64 i).toNat = true)
    (hb : p.byteExists b = false) : (m.writeBytes a bs).read b = m.read b :=
  Memory.read_writeBytes_outside m a bs fun i hi e => by rw [e, hp i hi] at hb; cases hb

/-- Single bytes stored at existing addresses change no byte that does not exist. -/
theorem Memory.read_writeCells_absent (m : Memory) (p : Platform) (cs : List (Word × Byte)) {b : Nat}
    (hp : ∀ c ∈ cs, p.admits c.1 1 = true) (hb : p.byteExists b = false) :
    (m.writeCells cs).read b = m.read b :=
  Memory.read_writeCells_outside m cs fun c hc e => by
    rw [e, ← admits_one, hp c hc] at hb; cases hb

/-- No instruction changes a byte that does not exist, but for halt at the last cell (R53, R146). -/
theorem Effect.read_absent {i : Instr} {s t : State} (he : Effect i s t) {b : Nat}
    (hb : s.platform.byteExists b = false) (hl : ∀ l, s.platform.lastCell = some l → b ≠ l.toNat) :
    t.mem.read b = s.mem.read b := by
  cases he with
  | quiet _ quiet _ _ _ => rw [quiet.1]
  | fault _ _ | output _ _ | input _ _ _ _ _ => rfl
  | store a n v admitted _ =>
    refine Memory.read_writeBytes_absent s.mem s.platform a _ (fun j hj => ?_) hb
    exact ((admits_iff _ _ _).1 admitted).2 j (by simpa using hj)
  | halt c _ => exact read_haltedMemory s c hl
  | transfer a bs n _ _ _ _ _ admitted bounded _ =>
    refine Memory.read_writeBytes_absent s.mem s.platform a bs (fun j hj => ?_) hb
    rw [← admits_one]
    exact (firstUnadmitted_none _ _ _).1 admitted j (hj.trans_le bounded)
  | handler cs _ _ _ _ _ admitted _ => exact Memory.read_writeCells_absent s.mem s.platform cs admitted hb

/-- Settles O17: a fault of the fetch leaves memory alone, and no instruction writes an absent byte. -/
theorem absentBytesNeverChange : Obligations.AbsentBytesNeverChange := by
  intro s t b h absent notLastCell
  obtain ⟨-, ⟨f, -, faulted⟩ | ⟨i, -, executed⟩⟩ := step_cases h
  · rw [faulted]; rfl
  · exact (exec_effect executed).read_absent absent notLastCell

/-! ### The trap's accesses -/

section
variable {x y z : Reg} {s : State}

/-- Traps 0 and 1 raise the fault of their parameter block, before anything else (R310). -/
theorem execTrap_of_paramBlock_error {f : RaisedFault} (hx : (s.readReg x).toNat < 2)
    (hf : s.paramBlock (s.readReg y) = .error f) : execTrap x y z s = .next (s.raise f) := by
  by_cases h0 : s.readReg x = 0
  · simp [execTrap, h0, trapRead, hf]
  · have h1 : s.readReg x = 1 := by bv_omega
    simp [execTrap, h1, trapWrite, hf]

/-- A trap number from 2 on is not the model's own (R155). -/
theorem execTrap_of_two_le (hx : 2 ≤ (s.readReg x).toNat) :
    execTrap x y z s = trapOther (s.readReg x) (s.readReg y) z s := by
  have h0 : s.readReg x ≠ 0 := by bv_omega
  have h1 : s.readReg x ≠ 1 := by bv_omega
  simp only [execTrap, if_neg h0, if_neg h1]

end

/-- A handler all of whose accesses exist completes (R155). -/
theorem trapOther_of_admitted {s : State} {n : Word} (p : Word) (z : Reg) (hn : n ∈ s.platform.extraTraps)
    (ha : ∀ a ∈ (s.otherReply n p).accesses, s.platform.admits a 1 = true) :
    trapOther n p z s =
      .next (((s.setMem (s.mem.writeCells (s.otherReply n p).writes)).recordHost
        (.other n p (s.otherReply n p)) (afterOther s.hostReplies)).writeReg z
          (s.otherReply n p).value).advance := by
  simp [trapOther, hn, (firstUnadmittedAccess_none _ _).2 ha, trapReturn]

/-- A handler one of whose accesses does not exist raises the fault of the first such access (R53, R304). -/
theorem trapOther_of_absent {s : State} {n : Word} (p : Word) (z : Reg) {a : Word}
    (hn : n ∈ s.platform.extraTraps)
    (ha : firstUnadmittedAccess s.platform (s.otherReply n p).accesses = some a) :
    trapOther n p z s = .next (s.raise (.memoryAccessFault a)) := by
  simp [trapOther, hn, ha]

/-- Settles O44: the three outcomes of reading the parameter block. -/
theorem trapBlockLayout : Obligations.TrapBlockLayout := by
  rintro x y z s p rfl
  rcases paramBlock_cases s (s.readReg y) with
    ⟨misaligned, block⟩ | ⟨aligned, admitted, block⟩ | ⟨aligned, absent, block⟩
  · exact ⟨fun aligned => absurd aligned misaligned,
      fun hx _ => ⟨_, execTrap_of_paramBlock_error hx block, rfl⟩, fun _ aligned => absurd aligned misaligned⟩
  · refine ⟨fun _ _ => ⟨_, block, ?_, ?_, bigEndianValue_readBytes ..⟩, fun _ h => absurd aligned h,
      fun _ _ h => ?_⟩
    · rw [bigEndianValue_readBytes]
      have bound := memValue_lt s (s.readReg y) 4
      exact toInt_ofNat_eq_signedValue (by omega)
    · simp only [bigEndianValue_readBytes, toNat_pattern]
      have bound := memValue_lt s (s.readReg y + 8) 8
      omega
    · rw [admitted] at h; cases h
  · refine ⟨fun _ h => ?_, fun _ h => absurd aligned h,
      fun hx _ _ => ⟨_, execTrap_of_paramBlock_error hx block, rfl⟩⟩
    rw [absent] at h; cases h

/-- Settles O48: the bytes of a completed handler by the laws of `Memory.writeCells`, the fault by the first
access that is not admitted. -/
theorem trapPlatformHandler : Obligations.TrapPlatformHandler := by
  rintro x y z s n p r rfl rfl number hasHandler rfl
  have dispatch := execTrap_of_two_le (y := y) (z := z) number
  constructor
  · intro admitted
    refine ⟨_, dispatch.trans (trapOther_of_admitted _ z hasHandler admitted), readReg_writeReg_dest _ z _,
      fun b unwritten => Memory.read_writeCells_outside _ _ unwritten, ?_, rfl, advance_ip_eq _, rfl,
      fun q hq => readReg_writeReg_ne _ _ (List.ne_of_not_mem_cons hq), rfl, rfl, rfl, rfl, rfl⟩
    intro wf cs a v ds writes last
    have stored := Memory.read_writeCells_last wf cs a v last
    rwa [← writes] at stored
  · intro before a after accesses admitted absent
    have first := (firstUnadmittedAccess_some _ _ _).2 ⟨absent, before, after, accesses, admitted⟩
    exact ⟨_, dispatch.trans (trapOther_of_absent _ z hasHandler first), rfl⟩

/-! ### Effective addresses -/

theorem scaledAddress_toNat (k : Nat) (base offset : Word) :
    (scaledAddress k base offset).toNat = (base.toNat + k * offset.toNat) % 2 ^ 64 :=
  toNat_pattern _

/-- R49 as an integer modulo 2^64. -/
theorem displacedAddress_toNat (d : Imm8) (base : Word) :
    ((displacedAddress d base).toNat : Int) = ((base.toNat : Int) + d.toInt) % 2 ^ 64 := by
  rw [displacedAddress, BitVec.toNat_ofInt, Int.add_comm]
  omega

/-- The unscaled form is the sum of its operands (R47). -/
theorem scaledAddress_one (base offset : Word) : scaledAddress 1 base offset = base + offset := by
  apply BitVec.eq_of_toNat_eq
  rw [scaledAddress_toNat, BitVec.toNat_add, Nat.one_mul]

/-- A displacement that is not negative goes forward from the base. -/
theorem displacedAddress_of_nonneg {d : Imm8} (base : Word) (h : d.toNat < 128) :
    displacedAddress d base = base + BitVec.ofNat 64 d.toNat := by
  have signed : d.toInt = d.toNat := BitVec.toInt_eq_toNat_of_lt (by omega)
  apply BitVec.eq_of_toNat_eq
  have address := displacedAddress_toNat d base
  rw [BitVec.toNat_add, BitVec.toNat_ofNat]
  omega

/-- A displacement of 0 leaves the base. -/
theorem displacedAddress_zero (base : Word) : displacedAddress 0 base = base :=
  (displacedAddress_of_nonneg base (by decide)).trans (BitVec.add_zero base)

/-- Settles O60: the sums, and with `%0` the other operand alone or a signed byte. -/
theorem addressesFollowTheSums : Obligations.AddressesFollowTheSums := by
  refine ⟨scaledAddress_toNat, displacedAddress_toNat, fun s a d => ?_⟩
  have zero : s.readReg 0 = 0 := readReg_zero s
  refine ⟨?_, ?_, ?_⟩
  · rw [scaledAddress_one, zero]; exact BitVec.add_zero a
  · rw [scaledAddress_one, zero]; exact BitVec.zero_add a
  · have address := displacedAddress_toNat d (s.readReg 0)
    rw [zero] at address ⊢
    have base : (0 : Word).toNat = 0 := rfl
    have above : -128 ≤ d.toInt := BitVec.le_toInt d
    have below : d.toInt < 128 := BitVec.toInt_lt
    omega

/-! ### Big-endian bytes and the numbers they stand for -/

/-- The last `k` of a number's bytes are its low bytes. -/
theorem drop_bigEndianBytes (n k v : Nat) : (bigEndianBytes (n + k) v).drop n = bigEndianBytes k v := by
  induction n with
  | zero => simp
  | succ n ih => rw [Nat.add_right_comm]; exact ih

/-- The `n` low bytes of a number stand for it modulo 256^n (R42, R44). -/
theorem bigEndianValue_bigEndianBytes (n v : Nat) : bigEndianValue (bigEndianBytes n v) = v % 256 ^ n := by
  induction n with
  | zero => simp [bigEndianBytes, bigEndianValue, Nat.mod_one]
  | succ n ih =>
    rw [bigEndianBytes, bigEndianValue, ih, length_bigEndianBytes, BitVec.toNat_ofNat,
      Nat.mod_pow_succ (b := 256), Nat.mul_comm, Nat.add_comm]

/-- As many bytes that stand for the same number are the same bytes. -/
theorem bigEndianValue_inj {bs cs : List Byte} (hl : bs.length = cs.length)
    (hv : bigEndianValue bs = bigEndianValue cs) : bs = cs := by
  induction bs generalizing cs with
  | nil => exact (List.length_eq_zero_iff.1 hl.symm).symm
  | cons b bs ih =>
    cases cs with
    | nil => cases hl
    | cons c cs =>
      have tails : bs.length = cs.length := Nat.succ.inj hl
      have tail (as : List Byte) (h : as.length = cs.length) : bigEndianValue as < 256 ^ cs.length :=
        h ▸ bigEndianValue_lt as
      have head (n v : Nat) (h : v < 256 ^ cs.length) : (n * 256 ^ cs.length + v) / 256 ^ cs.length = n := by
        rw [Nat.add_comm, Nat.add_mul_div_right _ _ (by positivity), Nat.div_eq_of_lt h, Nat.zero_add]
      simp only [bigEndianValue, tails] at hv
      have heads := congrArg (· / 256 ^ cs.length) hv
      simp only [head _ _ (tail bs tails), head _ _ (tail cs rfl)] at heads
      rw [heads] at hv
      rw [BitVec.eq_of_toNat_eq heads, ih tails (Nat.add_left_cancel hv)]

/-- A byte appended to a word. -/
theorem toNat_append_byte {n : Nat} (w : BitVec n) (b : Byte) : (w ++ b).toNat = w.toNat * 256 + b.toNat := by
  rw [BitVec.toNat_append, Nat.shiftLeft_eq, Nat.mul_comm, ← Nat.two_pow_add_eq_or_of_lt b.isLt, Nat.mul_comm]

/-- An instruction word is the number that its bytes stand for (R45, R60). -/
theorem encodeWord_toNat (i : Instr) : (encodeWord i).toNat = bigEndianValue (encode i) := by
  simp only [encodeWord, encode, toNat_append_byte, bigEndianValue, List.length_cons, List.length_nil]
  ring

/-- A longword whose value is that of an instruction word consists of the instruction's bytes. -/
theorem bigEndianBytes_eq_encode {i : Instr} {v : Nat} (h : v % 2 ^ 32 = (encodeWord i).toNat) :
    bigEndianBytes 4 v = encode i := by
  apply bigEndianValue_inj (length_bigEndianBytes 4 v)
  rw [bigEndianValue_bigEndianBytes, ← encodeWord_toNat, ← h]
  rfl

/-! ### What was stored is what is loaded -/

/-- Two displacements in a row. -/
theorem address_add (a : Word) (i j : Nat) :
    a + BitVec.ofNat 64 i + BitVec.ofNat 64 j = a + BitVec.ofNat 64 (i + j) := by
  rw [BitVec.add_assoc, BitVec.ofNat_add]

/-- Of bytes stored to a canonical memory, any consecutive ones read back. -/
theorem Memory.readBytes_writeBytes {m : Memory} (hm : m.wf = true) (a : Word) (bs : List Byte)
    (hl : bs.length ≤ 2 ^ 64) {j k : Nat} (hjk : j + k = bs.length) :
    (m.writeBytes a bs).readBytes (a + BitVec.ofNat 64 j) k = bs.drop j := by
  apply List.ext_getElem (by simp; omega)
  intro i hi _
  have hik : i < k := by simpa using hi
  rw [Memory.getElem_readBytes _ _ _ _ hik, address_add, List.getElem_drop]
  exact Memory.read_writeBytes_inside hm a bs hl (by omega)

/-- An aligned access to existing bytes loads them (R43, R230). -/
theorem load_of_admitted {w : Width} {a : Word} {s : State} (e : Extension) (z : Reg)
    (ha : a.toNat % w.bytes = 0) (hp : s.platform.admits a w.bytes = true) :
    load w e a z s =
      .next (s.writeReg z (extended e w (bigEndianValue (s.mem.readBytes a w.bytes)))).advance := by
  simp [load, State.memRead, ha, hp]

/-- An aligned access to existing bytes stores them (R44, R200). -/
theorem store_of_admitted {w : Width} {a : Word} {s : State} (v : Word)
    (ha : a.toNat % w.bytes = 0) (hp : s.platform.admits a w.bytes = true) :
    store w a v s = .next (s.setMem (s.mem.writeBytes a (bigEndianBytes w.bytes v.toNat))).advance := by
  simp [store, State.memWrite, ha, hp]

/-- The last `w.bytes` bytes of an aligned quad that exists are aligned for their width, and exist (R51, R53). -/
theorem low_part_of_quad {a : Word} {p : Platform} (w : Width) (ha : a.toNat % 8 = 0)
    (hp : p.admits a 8 = true) :
    (a + BitVec.ofNat 64 (8 - w.bytes)).toNat % w.bytes = 0 ∧
      p.admits (a + BitVec.ofNat 64 (8 - w.bytes)) w.bytes = true := by
  have pos : 0 < w.bytes ∧ w.bytes ≤ 8 := by cases w <;> decide
  have place : (a + BitVec.ofNat 64 (8 - w.bytes)).toNat = a.toNat + (8 - w.bytes) :=
    toNat_add_of_aligned (by decide) ha (by omega)
  have last : (a + BitVec.ofNat 64 7).toNat = a.toNat + 7 := toNat_add_of_aligned (by decide) ha (by omega)
  constructor
  · rw [place]; cases w <;> simp only [Width.bytes] <;> omega
  · refine (admits_iff _ _ _).2 ⟨.inl (by omega), fun i hi => ?_⟩
    rw [address_add]
    exact ((admits_iff _ _ _).1 hp).2 _ (by omega)

/-- A load of the last `w.bytes` bytes of a quad just stored, in the state after the store, gives the low
`w.bytes` bytes of the value stored (R42, R43, R44). -/
theorem load_low_part_of_stored_quad {s : State} {a : Word} (w : Width) (v : Word) (z : Reg)
    (hm : s.mem.wf = true) (ha : a.toNat % 8 = 0) (hp : s.platform.admits a 8 = true) (t : State)
    (ht : t = (s.setMem (s.mem.writeBytes a (bigEndianBytes 8 v.toNat))).advance) :
    load w .zero (a + BitVec.ofNat 64 (8 - w.bytes)) z t =
      .next (t.writeReg z (BitVec.ofNat 64 (v.toNat % 256 ^ w.bytes))).advance := by
  subst ht
  obtain ⟨aligned, admitted⟩ := low_part_of_quad w ha hp
  have split : 8 - w.bytes + w.bytes = 8 := by cases w <;> rfl
  have low : (bigEndianBytes 8 v.toNat).drop (8 - w.bytes) = bigEndianBytes w.bytes v.toNat := by
    have drop := drop_bigEndianBytes (8 - w.bytes) w.bytes v.toNat
    rwa [split] at drop
  rw [load_of_admitted .zero z aligned (by simpa using admitted), advance_mem, setMem_mem,
    Memory.readBytes_writeBytes hm a _ (by simp) (by simpa using split), low, bigEndianValue_bigEndianBytes]
  rfl

/-- Settles O58: each load is that of the last bytes of the stored quad. -/
theorem storeThenLoad : Obligations.StoreThenLoad := by
  rintro x y z s a wf hz rfl aligned admitted
  rw [displacedAddress_zero] at aligned admitted
  have stored : exec (.movqStoreDisp x 0 y) s =
      .next (s.setMem (s.mem.writeBytes (s.readReg y) (bigEndianBytes 8 (s.readReg x).toNat))).advance := by
    rw [exec_movqStoreDisp, displacedAddress_zero]
    exact store_of_admitted (w := .quad) _ aligned admitted
  refine ⟨_, stored, fun i v form => ?_⟩
  have loads (w : Width) (d : Imm8) (n : Nat) (hd : d.toNat = 8 - w.bytes) (hn : 256 ^ w.bytes = 2 ^ n) :
      ∃ u, load w .zero (displacedAddress d (s.readReg y)) z
          (s.setMem (s.mem.writeBytes (s.readReg y) (bigEndianBytes 8 (s.readReg x).toNat))).advance = .next u ∧
        u.readReg z = BitVec.ofNat 64 ((s.readReg x).toNat % 2 ^ n) := by
    rw [← hn, displacedAddress_of_nonneg _ (by omega), hd]
    exact ⟨_, load_low_part_of_stored_quad w (s.readReg x) z wf aligned admitted _ rfl,
      readReg_writeReg_self _ _ hz⟩
  rcases form with ⟨rfl, rfl⟩ | ⟨rfl, rfl⟩ | ⟨rfl, rfl⟩ | ⟨rfl, rfl⟩
  · have whole : (s.readReg x).toNat % 2 ^ 64 = (s.readReg x).toNat := Nat.mod_eq_of_lt (s.readReg x).isLt
    have quad := loads .quad 0 64 rfl rfl
    rw [whole] at quad
    exact quad
  · exact loads .long 4 32 rfl rfl
  · exact loads .word 6 16 rfl rfl
  · exact loads .byte 7 8 rfl rfl

/-- Settles O59: the bytes stored are those of the instruction, and the next step fetches and decodes them. -/
theorem storeSeenByFetch : Obligations.StoreSeenByFetch := by
  intro x y s i wf canFetch target admitted wellFormed word
  obtain ⟨running, aligned, -⟩ := canFetch
  have next : s.nextIp = s.ip + 4 := (advance_ip_eq s).symm
  have alignedNext : (s.ip + 4).toNat % 4 = 0 := add_four_aligned aligned
  rw [next] at admitted ⊢
  have stored : exec (.movlDisp x 0 y) s =
      .next (s.setMem (s.mem.writeBytes (s.ip + 4) (bigEndianBytes 4 (s.readReg x).toNat))).advance := by
    rw [exec_movlDisp, displacedAddress_zero, target, next]
    exact store_of_admitted (w := .long) _ alignedNext admitted
  rw [bigEndianBytes_eq_encode word] at stored
  refine ⟨_, stored, rfl, step_of_decode (rest := []) ⟨running, alignedNext, admitted⟩ ?_⟩
  have fetched := Memory.readBytes_writeBytes wf (s.ip + 4) (encode i) (j := 0) (k := 4) (by simp [encode]) rfl
  rw [advance_mem, setMem_mem, advance_ip, setMem_ip]
  rw [BitVec.add_zero] at fetched
  rw [fetched]
  exact decode_encode wellFormed

end Sys2Proof.Machine
end

section
/-! Proofs about the encoding (spec/30_encoding.md): the two round trips of decoder and encoder (R60, R61, R79),
the values of Op that no instruction has (R81, R302), the bytes a format ignores (R82), and the second spellings
(R94). What the decoder answers is read off the rows of the opcode map (Sys2Proof/Laws/Decode.lean). -/

namespace Sys2Proof.Machine

/-! ### Decoding what was encoded -/

/-- Settles O1: the bytes of a well-formed instruction decode to it, and the decoder looks no further. -/
theorem decodeEncodeRoundTrip : Obligations.DecodeEncodeRoundTrip := fun i rest wellFormed =>
  decode_cons _ _ _ i.opcode rest i (decodeFields_operandBytes wellFormed)

/-! ### Encoding what was decoded -/

/-- The bytes `Op X Y Z` with 0 in those that the format of Op ignores (R82, log entry 21). -/
def bytesWithoutIgnored (op x y z : Byte) : List Byte :=
  if op ∈ [0x01, 0x09, 0x60, 0x61, 0x69] then [op, x, 0, 0]
  else if op ∈ [0x40, 0x5E] then [op, x, y, 0]
  else if op = 0xFF then [op, 0, 0, 0]
  else [op, x, y, z]

/-- What a row of the opcode map builds is well formed and encodes to the row's own Op and the bytes it used. -/
def RowRoundTrips (r : OpcodeRow) : Prop :=
  ∀ x y z : Byte, (r.build x y z).wellFormed = true ∧
    encode (r.build x y z) = bytesWithoutIgnored r.op x y z

/-- A row that puts the operand XY together gives its two bytes back (R68, R69). -/
theorem rowRoundTrips_of_xy {op : Byte} (f : Imm16 → Reg → Instr)
    (h : ∀ o z, (f o z).wellFormed = true ∧
      encode (f o z) = bytesWithoutIgnored op (o.extractLsb' 8 8) (o.extractLsb' 0 8) z) :
    RowRoundTrips ⟨op, fun x y z => f (x ++ y) z⟩ := by
  intro x y z
  obtain ⟨wellFormed, encodes⟩ := h (x ++ y) z
  obtain ⟨hx, hy⟩ := extract_append16 x y
  rw [hx, hy] at encodes
  exact ⟨wellFormed, encodes⟩

/-- A row that puts the operand XYZ together gives its three bytes back (R70). -/
theorem rowRoundTrips_of_xyz {op : Byte} (f : Imm24 → Instr)
    (h : ∀ o, (f o).wellFormed = true ∧
      encode (f o) = bytesWithoutIgnored op (o.extractLsb' 16 8) (o.extractLsb' 8 8) (o.extractLsb' 0 8)) :
    RowRoundTrips ⟨op, fun x y z => f (x ++ y ++ z)⟩ := by
  intro x y z
  obtain ⟨wellFormed, encodes⟩ := h (x ++ y ++ z)
  obtain ⟨hx, hy, hz⟩ := extract_append24 x y z
  rw [hx, hy, hz] at encodes
  exact ⟨wellFormed, encodes⟩

/-- The load-immediate rows round trip. -/
theorem rowRoundTrips_loadImmediate : List.Forall RowRoundTrips loadImmediateRows :=
  ⟨rowRoundTrips_of_xy .ldzwq fun _ _ => ⟨rfl, rfl⟩, rowRoundTrips_of_xy .ldswq fun _ _ => ⟨rfl, rfl⟩,
    rowRoundTrips_of_xy .shldwq fun _ _ => ⟨rfl, rfl⟩⟩

/-- The jump rows round trip: the first, jmp through a register, ignores Z; the others read XYZ. -/
theorem rowRoundTrips_jump : List.Forall RowRoundTrips jumpRows := by
  refine ⟨fun _ _ _ => ⟨rfl, rfl⟩, ?_⟩
  exact ⟨rowRoundTrips_of_xyz .jmpRel fun _ => ⟨rfl, rfl⟩, rowRoundTrips_of_xyz .je fun _ => ⟨rfl, rfl⟩,
    rowRoundTrips_of_xyz .jne fun _ => ⟨rfl, rfl⟩, rowRoundTrips_of_xyz .jl fun _ => ⟨rfl, rfl⟩,
    rowRoundTrips_of_xyz .jge fun _ => ⟨rfl, rfl⟩, rowRoundTrips_of_xyz .jle fun _ => ⟨rfl, rfl⟩,
    rowRoundTrips_of_xyz .jg fun _ => ⟨rfl, rfl⟩, rowRoundTrips_of_xyz .jb fun _ => ⟨rfl, rfl⟩,
    rowRoundTrips_of_xyz .jae fun _ => ⟨rfl, rfl⟩, rowRoundTrips_of_xyz .jbe fun _ => ⟨rfl, rfl⟩,
    rowRoundTrips_of_xyz .ja fun _ => ⟨rfl, rfl⟩⟩

/-- Every row of the opcode map round trips: outside the wide operands each field is one byte of the word. -/
theorem rowRoundTrips_of_mem : ∀ r ∈ opcodeMap, RowRoundTrips r := by
  rw [← List.forall_iff_forall_mem]
  simp only [opcodeMap, List.forall_append]
  refine ⟨⟨⟨⟨⟨⟨⟨⟨?system, ?arith⟩, ?logic⟩, rowRoundTrips_loadImmediate⟩, rowRoundTrips_jump⟩, ?load⟩,
    ?scaledLoad⟩, ?store⟩, ?scaledStore⟩ <;> and_intros <;> exact fun _ _ _ => ⟨rfl, rfl⟩

/-- Settles O2: what decodes was built by a row of the map, and every row round trips. -/
theorem encodeDecodeRoundTrip : Obligations.EncodeDecodeRoundTrip := by
  intro op x y z i decodes
  obtain ⟨r, mem, rfl, rfl⟩ := row_of_decodeFields x y z op i decodes
  exact rowRoundTrips_of_mem r mem x y z

/-! ### The values of Op without an instruction -/

/-- The values of Op in the map, in rising order, are those of 0 to 255 that R81 does not list. -/
theorem definedOpcodes_eq :
    ((List.range 256).filter fun n => !undefinedOpcode (BitVec.ofNat 8 n)) =
      (opcodeMap.map fun r => r.op.toNat).insertionSort (· ≤ ·) := by decide

/-- A byte decodes to no instruction exactly when R81 lists it. -/
theorem decodeFields_eq_none_iff_undefined (op x y z : Byte) :
    decodeFields op x y z = none ↔ undefinedOpcode op = true := by
  have has_row : (∃ r ∈ opcodeMap, r.op.toNat = op.toNat) ↔ undefinedOpcode op = false := by
    rw [← List.mem_map, ← List.mem_insertionSort (· ≤ ·), ← definedOpcodes_eq]
    simp [op.isLt]
  rw [decodeFields_eq_none_iff, ← Bool.not_eq_false, ← has_row]
  simp [BitVec.toNat_inj]

/-- R81 lists 158 values of Op. -/
theorem length_undefinedOpcodes :
    ((List.range 256).filter fun n => undefinedOpcode (BitVec.ofNat 8 n)).length = 158 := by rfl

/-- A good fetch of a word that decodes to nothing is the fault of that word (R302). -/
theorem fetchInstr_of_undecodable {s : State} {op x y z : Byte} (hc : s.CanFetch) (hw : s.WordAtIp op x y z)
    (hd : decodeFields op x y z = none) : s.fetchInstr = .error (.illegalInstruction (op ++ x ++ y ++ z)) := by
  obtain ⟨-, aligned, admitted⟩ := hc
  simp [State.fetchInstr, State.fetchBytes, aligned, admitted, hw.readBytes_eq, decode_cons_none x y z op [] hd,
    decodeFault]

/-- Settles O3: the map against R81's list, the count, and the step whose fetch finds no instruction. -/
theorem undefinedOpcodesAreIllegal : Obligations.UndefinedOpcodesAreIllegal := by
  refine ⟨decodeFields_eq_none_iff_undefined, length_undefinedOpcodes, ?_⟩
  intro op x y z s undefined canFetch word
  have undecodable := (decodeFields_eq_none_iff_undefined op x y z).2 undefined
  have fault := fetchInstr_of_undecodable canFetch word undecodable
  exact ⟨_, step_of_fetchInstr_error canFetch.1 fault, rfl, rfl⟩

/-! ### The bytes a format ignores -/

/-- Settles O4: the rows of formats R, U8, RR and of nop do not look at the bytes in question, and the encoder
writes 0 there. -/
theorem unusedBytesIgnored : Obligations.UnusedBytesIgnored := by
  refine ⟨fun op x y z oneByte => ?_, fun op x y z twoBytes => ?_, decodeFields_nop,
    fun x => ⟨rfl, rfl, rfl, rfl, rfl⟩, fun x y => ⟨rfl, rfl⟩, rfl⟩
  · simp only [List.mem_cons, List.not_mem_nil, or_false] at oneByte
    rcases oneByte with rfl | rfl | rfl | rfl | rfl <;> simp
  · simp only [List.mem_cons, List.not_mem_nil, or_false] at twoBytes
    rcases twoBytes with rfl | rfl <;> simp

/-! ### Words written out from the formats -/

/-- A word decodes to what its four bytes decode to. -/
theorem decodeWord_of_wordBytes {w : BitVec 32} {op x y z : Byte} {i : Instr} (hw : wordBytes w = [op, x, y, z])
    (hd : decodeFields op x y z = some i) : decodeWord w = .ok i := by
  rw [decodeWord, hw, decode_cons x y z op [] i hd]
  rfl

/-- Settles O5: the four bytes of each word, and the row of the opcode map under the first of them. -/
theorem sampleWordsDecode : Obligations.SampleWordsDecode :=
  ⟨decodeWord_of_wordBytes rfl (decodeFields_addqReg 1 2 3),
    decodeWord_of_wordBytes rfl (decodeFields_imulqImm 0xFE 2 3),
    decodeWord_of_wordBytes rfl (decodeFields_shlqImm 1 2 3),
    decodeWord_of_wordBytes rfl (decodeFields_ldswq 0xFF 0xFE 3),
    decodeWord_of_wordBytes rfl (decodeFields_jmpRel 0xFF 0xFF 0xFE),
    decodeWord_of_wordBytes rfl (decodeFields_jbe 0 0 2),
    decodeWord_of_wordBytes rfl (decodeFields_movwDisp 1 0xF8 2),
    decodeWord_of_wordBytes rfl (decodeFields_movslqScaled8 1 2 3),
    decodeWord_of_wordBytes rfl (decodeFields_haltImm 5 0xAA 0xBB),
    decodeWord_of_wordBytes rfl (decodeFields_trap 1 2 3)⟩

/-! ### Second spellings -/

/-- The law of canonical words (Sys2Proof/Laws/PerInstr.lean) for every instruction at once. -/
theorem canonicalWord (i : Instr) : Laws.CanonicalWord.Statement i := by
  cases i <;> exact ⟨rfl, rfl⟩

/-- A spelling means what its first mnemonic means (R94): a second one by the meaning it was given, any other
spelling because it is its own first mnemonic. -/
theorem exec_canon (i : Instr) (s : State) : exec i.canon s = exec i s := by
  cases i with
  | salqReg _ _ _ | salqImm _ _ _ | jz _ | jnz _ | jnge _ | jnl _ | jng _ | jnle _ | jnae _ | jnb _ | jna _ | jnbe _ =>
    rfl
  | _ => rfl

/-- Settles O6: in each pair the second is the first mnemonic of the first. -/
theorem aliasesShareMeaning : Obligations.AliasesShareMeaning := by
  intro x y z o a c pair
  have ⟨first, spelling⟩ : a.canon = c ∧ a.wellFormed = false := by
    simp only [List.mem_cons, List.not_mem_nil, or_false, Prod.mk.injEq] at pair
    rcases pair with ⟨rfl, rfl⟩ | ⟨rfl, rfl⟩ | ⟨rfl, rfl⟩ | ⟨rfl, rfl⟩ | ⟨rfl, rfl⟩ | ⟨rfl, rfl⟩ | ⟨rfl, rfl⟩ |
      ⟨rfl, rfl⟩ | ⟨rfl, rfl⟩ | ⟨rfl, rfl⟩ | ⟨rfl, rfl⟩ | ⟨rfl, rfl⟩ <;> exact ⟨rfl, rfl⟩
  subst first
  obtain ⟨sameWord, wellFormed⟩ := canonicalWord a
  exact ⟨sameWord.symm, spelling, wellFormed, fun s => (exec_canon a s).symm⟩

end Sys2Proof.Machine
end

section
/-! Proofs about integer arithmetic (spec/40_integer_arithmetic.md): sums, differences and products with their flags
(R100 to R107), the two divisions with their faults in the order of R310 (R108 to R111, R114, R115), and the
conditional jumps after a comparison (R163, R174). -/

namespace Sys2Proof.Machine

/-! ### Registers written, and what stays -/

/-- Where sequential advance goes (R25). -/
theorem advance_ip_eq_nextIp (s : State) : s.advance.ip = s.nextIp := advance_ip_eq s

/-- What `Quiet` says of the memory, byte by byte, and of the world. -/
theorem Quiet.kept {s t : State} (h : Quiet s t) : s.BytesKept t ∧ s.WorldKept t := by
  obtain ⟨mem, status, input, output, hostLog, platform, hostReplies⟩ := h
  exact ⟨fun b => by rw [mem], status, input, output, hostLog, hostReplies, platform⟩

/-- One register written, flags replaced, sequential advance: all there is to the instructions of this shape. -/
theorem putResult_spec (s : State) (z : Reg) (r : Word) (f : Flags) :
    ∃ t, putResult s z r f = .next t ∧ t.Received z r ∧ t.flags = f ∧ t.ip = s.nextIp ∧ s.OnlyRegs t [z] :=
  ⟨_, putResult_eq s z r f, readReg_writeReg_dest s z r, rfl, advance_ip_eq_nextIp s,
    fun _ hq => readReg_writeReg_ne s r (List.ne_of_not_mem_cons hq), fun _ => rfl,
    ⟨rfl, rfl, rfl, rfl, rfl, rfl⟩, rfl⟩

/-- The registers after a pair is written to `%z` and `%(z+1)`. -/
theorem readReg_writePair (s : State) {z : Reg} (v w : Word) (hz : z ≠ 255) (t : State)
    (ht : t = (s.writeReg z v).writeReg (z + 1) w) :
    t.Received z v ∧ t.readReg (z + 1) = w ∧ s.RegsKept t [z, z + 1] := by
  subst ht
  refine ⟨?_, readReg_writeReg_self _ w (by bv_omega), fun q hq => ?_⟩
  · exact (readReg_writeReg_ne _ w (by bv_omega)).trans (readReg_writeReg_dest s z v)
  · simp only [List.mem_cons, List.not_mem_nil, or_false, not_or] at hq
    obtain ⟨notLow, notHigh⟩ := hq
    rw [readReg_writeReg_ne _ w notHigh, readReg_writeReg_ne s v notLow]

/-- The registers after a third value follows the pair, in `%(z+2)`. -/
theorem readReg_writeTriple (s : State) {z : Reg} (u v w : Word) (hz : z.toNat < 254) (t : State)
    (ht : t = ((s.writeReg z u).writeReg (z + 1) v).writeReg (z + 2) w) :
    t.Received z u ∧ t.readReg (z + 1) = v ∧ t.readReg (z + 2) = w ∧ s.RegsKept t [z, z + 1, z + 2] := by
  obtain ⟨first, second, kept⟩ := readReg_writePair s u v (z := z) (by bv_omega) _ rfl
  subst ht
  refine ⟨?_, ?_, readReg_writeReg_self _ w (by bv_omega), fun q hq => ?_⟩
  · exact (readReg_writeReg_ne _ w (by bv_omega)).trans first
  · exact (readReg_writeReg_ne _ w (by bv_omega)).trans second
  · simp only [List.mem_cons, List.not_mem_nil, or_false, not_or] at hq
    obtain ⟨notFirst, notSecond, notThird⟩ := hq
    rw [readReg_writeReg_ne _ w notThird]
    exact kept q (List.not_mem_cons_of_ne_of_not_mem notFirst
      (List.not_mem_cons_of_ne_of_not_mem notSecond List.not_mem_nil))

/-- Two quiet changes in a row are quiet. -/
theorem Quiet.trans {s t u : State} (h : Quiet s t) (h' : Quiet t u) : Quiet s u := by
  obtain ⟨mem, status, input, output, hostLog, platform, hostReplies⟩ := h
  obtain ⟨mem', status', input', output', hostLog', platform', hostReplies'⟩ := h'
  exact ⟨mem'.trans mem, status'.trans status, input'.trans input, output'.trans output, hostLog'.trans hostLog,
    platform'.trans platform, hostReplies'.trans hostReplies⟩

/-- Writing registers alone is quiet. -/
theorem quiet_of_registers {s w : State} (hw : w = { s with gpr := w.gpr }) : Quiet s w := by
  rw [hw]
  exact ⟨rfl, rfl, rfl, rfl, rfl, rfl, rfl⟩

theorem quiet_silentFlags (w : State) : Quiet w w.silentFlags := by
  obtain ⟨-, -, mem, status, input, output, hostLog, platform, hostReplies, -⟩ := silentFlags_keeps w
  exact ⟨mem, status, input, output, hostLog, platform, hostReplies⟩

theorem quiet_afterMulqFlags (w : State) (a b : Word) : Quiet w (w.afterMulqFlags a b) := by
  obtain ⟨-, -, mem, status, input, output, hostLog, platform, hostReplies, -⟩ := afterMulqFlags_keeps w a b
  exact ⟨mem, status, input, output, hostLog, platform, hostReplies⟩

/-- What stays of `s` when registers alone were written, giving `w`, and the silent flags and the advance follow. -/
theorem silentFlags_advance_kept {s w t : State} (hw : w = { s with gpr := w.gpr }) (ht : t = w.silentFlags.advance) :
    (∀ q, t.readReg q = w.readReg q) ∧ s.SilentKept t ∧ t.ip = s.nextIp ∧ s.BytesKept t ∧ s.WorldKept t := by
  subst ht
  obtain ⟨-, ip, -, -, -, -, -, -, -, regs⟩ := silentFlags_keeps w
  obtain ⟨bytes, world⟩ := ((quiet_of_registers hw).trans (quiet_silentFlags w)).kept
  refine ⟨regs, fun unchanged => ?_, ?_, bytes, world⟩
  · rcases silentFlags_cases w with ⟨-, same⟩ | ⟨arbitrary, -⟩
    · rw [same, hw]; exact ⟨rfl, rfl⟩
    · rw [hw, unchanged] at arbitrary; cases arbitrary
  · rw [advance_ip, ip, hw]; exact advance_ip_eq_nextIp s

/-! ### Sums and differences -/

theorem signFlag_iff (r : Word) : signFlag r = true ↔ 2 ^ 63 ≤ r.toNat := decide_eq_true_iff

theorem outOfSigned_iff (n : Int) : outOfSigned n = true ↔ 2 ^ 63 ≤ n ∨ n < -2 ^ 63 := decide_eq_true_iff

theorem sumOf_toNat (a b : Word) : (sumOf a b).toNat = (a.toNat + b.toNat) % 2 ^ 64 := toNat_pattern _

theorem differenceOf_toNat (a b : Word) :
    ((differenceOf a b).toNat : Int) = ((b.toNat : Int) - a.toNat) % 2 ^ 64 := by
  rw [differenceOf, BitVec.toNat_ofInt]
  omega

/-- The difference is zero exactly for equal operands. -/
theorem subFlags_zf_iff (a b : Word) : (subFlags a b).zf = true ↔ a = b := by
  rw [subFlags, zeroFlag_iff, differenceOf_eq_sub, sub_eq_zero, eq_comm]

/-- The borrow (R102). -/
theorem subFlags_cf_iff (a b : Word) : (subFlags a b).cf = true ↔ b.toNat < a.toNat := by
  rw [subFlags, decide_eq_true_iff]
  omega

/-- The sign of the difference modulo 2^64 (R102). -/
theorem subFlags_sf_iff (a b : Word) :
    (subFlags a b).sf = true ↔ 2 ^ 63 ≤ ((b.toNat : Int) - a.toNat) % 2 ^ 64 := by
  rw [← differenceOf_toNat, subFlags, signFlag_iff]
  omega

/-- Settles O22: both forms are `addInto`, which is one register write with the flags of R100. -/
theorem addqSum : Obligations.AddqSum := by
  refine fun x y z s => ⟨decodeFields_addqReg x y z, decodeFields_addqImm x y z, fun i a b form hb => ?_⟩
  have run : exec i s = putResult s z (sumOf a b) (addFlags a b) := by
    subst hb
    rcases form with ⟨rfl, rfl⟩ | ⟨rfl, rfl⟩
    · rfl
    · rw [exec_addqImm, zeroExtended8_eq]; rfl
  obtain ⟨t, result, received, flags, ip, kept⟩ := putResult_spec s z (sumOf a b) (addFlags a b)
  refine ⟨t, run.trans result, received, ?_, ?_, ?_, ?_, ip, kept⟩
  · rw [flags]; exact decide_eq_true_iff
  · rw [flags]; exact outOfSigned_iff _
  · rw [flags, ← sumOf_toNat]; exact signFlag_iff _
  · rw [flags, ← sumOf_toNat]; exact decide_eq_true_iff

/-- Both forms of subq are a register write of the difference with its flags. -/
theorem exec_subq_form {i : Instr} {x y z : Byte} {s : State} {a : Word}
    (form : i = .subqReg x y z ∧ a = s.readReg x ∨ i = .subqImm x y z ∧ a = BitVec.ofNat 64 x.toNat) :
    exec i s = putResult s z (differenceOf a (s.readReg y)) (subFlags a (s.readReg y)) := by
  rcases form with ⟨rfl, rfl⟩ | ⟨rfl, rfl⟩
  · rfl
  · rw [exec_subqImm, zeroExtended8_eq]; rfl

/-- Settles O23: one register write with the flags of the difference. -/
theorem subqDifference : Obligations.SubqDifference := by
  refine fun x y z s => ⟨decodeFields_subqReg x y z, decodeFields_subqImm x y z, fun i a b form hb => ?_⟩
  subst hb
  obtain ⟨t, result, received, flags, ip, kept⟩ :=
    putResult_spec s z (differenceOf a (s.readReg y)) (subFlags a (s.readReg y))
  refine ⟨t, (exec_subq_form form).trans result, received, ?_, ?_, ?_, ?_, ip, kept⟩
  · rw [flags]; exact subFlags_zf_iff _ _
  · rw [flags]; exact subFlags_cf_iff _ _
  · rw [flags]; exact (outOfSigned_iff _).trans or_comm
  · rw [flags]; exact subFlags_sf_iff _ _

/-! ### Comparing and jumping -/

/-- What a conditional jump asks of the operands of a preceding comparison: `a` the minuend, `b` the subtrahend
(the last column of R163). -/
def Condition.compares (c : Condition) (a b : Word) : Prop :=
  match c with
  | .equal => a = b
  | .notEqual => a ≠ b
  | .less => a.toInt < b.toInt
  | .greaterEqual => b.toInt ≤ a.toInt
  | .lessEqual => a.toInt ≤ b.toInt
  | .greater => b.toInt < a.toInt
  | .below => a.toNat < b.toNat
  | .aboveEqual => b.toNat ≤ a.toNat
  | .belowEqual => a.toNat ≤ b.toNat
  | .above => b.toNat < a.toNat

/-- SF and OF differ exactly when the exact signed difference is negative: OF says that SF shows the wrong sign. -/
theorem subFlags_sf_ne_of_iff (b a : Word) :
    ((subFlags b a).sf != (subFlags b a).of) = true ↔ a.toInt < b.toInt := by
  have signed : (subFlags b a).sf = true ↔ 2 ^ 63 ≤ ((a.toNat : Int) - b.toNat) % 2 ^ 64 := subFlags_sf_iff b a
  have overflow : (subFlags b a).of = true ↔ 2 ^ 63 ≤ a.toInt - b.toInt ∨ a.toInt - b.toInt < -2 ^ 63 :=
    outOfSigned_iff _
  have aSigned := BitVec.toInt_eq_toNat_cond a
  have bSigned := BitVec.toInt_eq_toNat_cond b
  have aBound := a.isLt
  have bBound := b.isLt
  rw [bne_iff_ne, ne_eq, Bool.eq_iff_iff, signed, overflow]
  split at aSigned <;> split at bSigned <;> omega

/-- The flags of a comparison satisfy a condition exactly when its operands compare as R163's last column says. -/
theorem holds_subFlags_iff (c : Condition) (b a : Word) : c.holds (subFlags b a) = true ↔ c.compares a b := by
  have zero := subFlags_zf_iff b a
  have carry := subFlags_cf_iff b a
  have sign := subFlags_sf_ne_of_iff b a
  have eqNat : b = a ↔ a.toNat = b.toNat := by rw [eq_comm, BitVec.toNat_inj]
  have eqInt : b = a ↔ a.toInt = b.toInt := by rw [eq_comm, BitVec.toInt_inj]
  have notSign : ((subFlags b a).sf == (subFlags b a).of) = true ↔ ¬ a.toInt < b.toInt := by
    rw [← sign, bne, Bool.not_eq_true', Bool.not_eq_false]
  cases c with
  | equal => exact zero.trans eq_comm
  | notEqual => rw [Condition.holds, Bool.not_eq_true', ← Bool.not_eq_true, zero, eq_comm]; rfl
  | less => exact sign
  | greaterEqual => exact notSign.trans not_lt
  | lessEqual => rw [Condition.holds, Bool.or_eq_true, zero, sign, eqInt, Condition.compares]; omega
  | greater =>
    rw [Condition.holds, Bool.and_eq_true, Bool.not_eq_true', ← Bool.not_eq_true, zero, notSign, eqInt,
      Condition.compares]
    omega
  | below => exact carry
  | aboveEqual => rw [Condition.holds, Bool.not_eq_true', ← Bool.not_eq_true, carry, Condition.compares]; omega
  | belowEqual => rw [Condition.holds, Bool.or_eq_true, zero, carry, eqNat, Condition.compares]; omega
  | above =>
    rw [Condition.holds, Bool.and_eq_true, Bool.not_eq_true', Bool.not_eq_true', ← Bool.not_eq_true,
      ← Bool.not_eq_true, zero, carry, eqNat, Condition.compares]
    omega

/-- A conditional jump goes to its target or on to the next instruction, by its condition alone. -/
theorem jumpIf_spec (c : Condition) (o : Imm24) (t : State) :
    ∃ u, jumpIf c o t = .next u ∧
      (c.holds t.flags = true → u = { t with ip := BitVec.ofInt 64 (t.ip.toNat + 4 * o.toInt) }) ∧
      (¬ c.holds t.flags = true → u = { t with ip := t.nextIp }) := by
  rcases jumpIf_cases c o t with ⟨taken, result⟩ | ⟨notTaken, result⟩
  · exact ⟨_, result, fun _ => rfl, fun h => absurd taken h⟩
  · refine ⟨_, result, fun h => absurd h (by simp [notTaken]), fun _ => ?_⟩
    rw [← advance_ip_eq_nextIp]; rfl

/-- Settles O32: the jump's condition is read from the flags of the difference. -/
theorem compareThenJump : Obligations.CompareThenJump := by
  intro x y z o s i j a b holds form ha jump
  subst ha
  have ⟨c, isJump, asks⟩ : ∃ c : Condition,
      (∀ t, exec j t = jumpIf c o t) ∧ (holds ↔ c.compares (s.readReg y) b) := by
    rcases jump with ⟨rfl, h⟩ | ⟨rfl, h⟩ | ⟨rfl, h⟩ | ⟨rfl, h⟩ | ⟨rfl, h⟩ | ⟨rfl, h⟩ | ⟨rfl, h⟩ | ⟨rfl, h⟩ |
      ⟨rfl, h⟩ | ⟨rfl, h⟩
    · exact ⟨.equal, fun _ => rfl, h⟩
    · exact ⟨.notEqual, fun _ => rfl, h⟩
    · exact ⟨.less, fun _ => rfl, h⟩
    · exact ⟨.greaterEqual, fun _ => rfl, h⟩
    · exact ⟨.lessEqual, fun _ => rfl, h⟩
    · exact ⟨.greater, fun _ => rfl, h⟩
    · exact ⟨.below, fun _ => rfl, h⟩
    · exact ⟨.aboveEqual, fun _ => rfl, h⟩
    · exact ⟨.belowEqual, fun _ => rfl, h⟩
    · exact ⟨.above, fun _ => rfl, h⟩
  obtain ⟨t, result, -, flags, -, -⟩ :=
    putResult_spec s z (differenceOf b (s.readReg y)) (subFlags b (s.readReg y))
  obtain ⟨u, jumped, taken, notTaken⟩ := jumpIf_spec c o t
  have reads : c.holds t.flags = true ↔ holds := by rw [flags, holds_subFlags_iff, asks]
  rw [reads] at taken notTaken
  exact ⟨t, u, (exec_subq_form form).trans result, (isJump t).trans jumped, taken, notTaken⟩

/-! ### Products -/

/-- What stays of `s` when registers alone were written, giving `w`, and mulq's flags and the advance follow. -/
theorem afterMulqFlags_advance_kept {s w t : State} (a b : Word) (hw : w = { s with gpr := w.gpr })
    (ht : t = (w.afterMulqFlags a b).advance) :
    (∀ q, t.readReg q = w.readReg q) ∧ t.flags.zf = s.flags.zf ∧ t.flags.sf = s.flags.sf ∧
      (s.platform.mulqFlags = .literal →
        t.flags.cf = mulFlag a b ∧ t.flags.of = mulFlag a b ∧ t.draws = s.draws) ∧
      t.ip = s.nextIp ∧ s.BytesKept t ∧ s.WorldKept t := by
  subst ht
  obtain ⟨-, ip, -, -, -, -, -, -, -, zf, sf, regs⟩ := afterMulqFlags_keeps w a b
  obtain ⟨bytes, world⟩ := ((quiet_of_registers hw).trans (quiet_afterMulqFlags w a b)).kept
  have sameFlags : w.flags = s.flags := by rw [hw]
  rw [sameFlags] at zf sf
  refine ⟨regs, zf, sf, fun literal => ?_, ?_, bytes, world⟩
  · rcases afterMulqFlags_cases w a b with ⟨-, table⟩ | ⟨arbitrary, -⟩
    · rw [table, hw]; exact ⟨rfl, rfl, rfl⟩
    · rw [hw, literal] at arbitrary; cases arbitrary
  · rw [advance_ip, ip, hw]; exact advance_ip_eq_nextIp s

/-- Settles O24: both forms are `mulInto`; the pair of R104 where `%(z+1)` exists, a fault where it does not. -/
theorem mulqProduct : Obligations.MulqProduct := by
  refine fun x y z s => ⟨decodeFields_mulqReg x y z, decodeFields_mulqImm x y z, fun i p form => ?_⟩
  have ⟨a, run, product⟩ : ∃ a : Word, exec i s = mulInto a y z s ∧ p = a.toNat * (s.readReg y).toNat := by
    rcases form with ⟨rfl, rfl⟩ | ⟨rfl, rfl⟩
    · exact ⟨s.readReg x, rfl, rfl⟩
    · exact ⟨zeroExtended8 x, rfl, by rw [zeroExtended8_toNat]⟩
  subst product
  rcases mulInto_cases a y z s with ⟨last, fault⟩ | ⟨notLast, result⟩
  · exact ⟨fun h => absurd last h, fun _ => ⟨_, run.trans fault, rfl⟩⟩
  · refine ⟨fun _ => ?_, fun h => absurd h notLast⟩
    obtain ⟨low, high, others⟩ := readReg_writePair s (productLow a (s.readReg y))
      (productHigh a (s.readReg y)) notLast _ rfl
    obtain ⟨regs, zf, sf, table, ip, bytes, world⟩ := afterMulqFlags_advance_kept
      (s := s) (w := (s.writeReg z (productLow a (s.readReg y))).writeReg (z + 1) (productHigh a (s.readReg y)))
      a (s.readReg y) rfl rfl
    refine ⟨_, run.trans result, (regs z).trans low, (regs _).trans high, zf, sf, fun literal => ?_, ip,
      fun q hq => (regs q).trans (others q hq), bytes, world⟩
    obtain ⟨cf, overflow, draws⟩ := table literal
    rw [cf, overflow]
    exact ⟨decide_eq_true_iff, decide_eq_true_iff, draws⟩

/-- Settles O26: both forms are `signedMulInto`, one register write with CF and OF of the exact products. -/
theorem imulqProduct : Obligations.ImulqProduct := by
  refine fun x y z s => ⟨decodeFields_imulqReg x y z, decodeFields_imulqImm x y z, fun i a b p form hb hp => ?_⟩
  rw [← productLow_eq] at hp
  subst hb hp
  have run : exec i s = signedMulInto a y z s := by
    rcases form with ⟨rfl, rfl⟩ | ⟨rfl, rfl⟩
    · rfl
    · rw [exec_imulqImm, signExtended8_eq]
  obtain ⟨t, result, received, flags, ip, kept⟩ := putResult_spec s z (productLow a (s.readReg y))
    (s.flags.withCarryOverflow (imulCarry a (s.readReg y)) (imulOverflow a (s.readReg y)))
  refine ⟨t, run.trans result, received, ?_, ?_, ?_, ?_, ip, kept⟩ <;> rw [flags]
  · exact decide_eq_true_iff
  · exact decide_eq_true_iff
  · rfl
  · rfl

/-! ### Unsigned division -/

/-- Settles O27: both forms are `divInto`, and the four clauses are its four cases in R310's order. -/
theorem divqQuotient : Obligations.DivqQuotient := by
  refine fun x y z s => ⟨decodeFields_divqReg x y z, decodeFields_divqImm x y z, fun i d n form hn => ?_⟩
  have run : exec i s = divInto d y z s := by
    rcases form with ⟨rfl, rfl⟩ | ⟨rfl, rfl⟩ <;> rfl
  rcases divInto_cases d y z s n hn with
    ⟨badY, fault⟩ | ⟨goodY, badZ, fault⟩ | ⟨goodY, goodZ, zero, fault⟩ | ⟨goodY, goodZ, nonzero, result⟩
  · exact ⟨fun h => absurd badY h, fun _ => ⟨_, run.trans fault, rfl⟩, fun h => absurd badY h,
      fun h => absurd badY h⟩
  · exact ⟨fun _ h => absurd badZ h.not_ge, fun h => absurd h goodY, fun _ _ => ⟨_, run.trans fault, rfl⟩,
      fun _ h => absurd badZ h.not_ge⟩
  · exact ⟨fun _ _ h => absurd zero h, fun h => absurd h goodY, fun _ h => absurd h goodZ.not_ge,
      fun _ _ _ => ⟨_, run.trans fault, rfl⟩⟩
  · refine ⟨fun _ _ _ => ?_, fun h => absurd h goodY, fun _ h => absurd h goodZ.not_ge,
      fun _ _ h => absurd h nonzero⟩
    obtain ⟨low, high, remainder, others⟩ := readReg_writeTriple s (BitVec.ofNat 64 (n / d % 2 ^ 64))
      (BitVec.ofNat 64 (n / d / 2 ^ 64)) (BitVec.ofNat 64 (n % d)) goodZ _ rfl
    obtain ⟨regs, silent, ip, bytes, world⟩ := silentFlags_advance_kept (s := s)
      (w := ((s.writeReg z (BitVec.ofNat 64 (n / d % 2 ^ 64))).writeReg (z + 1)
        (BitVec.ofNat 64 (n / d / 2 ^ 64))).writeReg (z + 2) (BitVec.ofNat 64 (n % d)))
      rfl rfl
    exact ⟨_, run.trans result, (regs z).trans low, (regs _).trans high, (regs _).trans remainder, silent, ip,
      fun q hq => (regs q).trans (others q hq), bytes, world⟩

/-! ### Signed division -/

/-- Settles O29: both forms are `signedDivInto`, and the clauses are its cases in R310's order; `sg` and `q` are
the steps of `signedQuotient`. -/
theorem idivqQuotient : Obligations.IdivqQuotient := by
  refine fun x y z s => ⟨decodeFields_idivqReg x y z, decodeFields_idivqImm x y z,
    fun i xv yv sg q form hy hsg hq => ?_⟩
  have quotient : signedQuotient xv yv = q := by rw [hq, hsg]; rfl
  have run : exec i s = signedDivInto xv y z s := by
    rcases form with ⟨rfl, rfl⟩ | ⟨rfl, rfl⟩ <;> rfl
  rcases signedDivInto_cases xv y z s yv hy with
    ⟨last, fault⟩ | ⟨notLast, zero, fault⟩ | ⟨notLast, nonzero, overflow, fault⟩ |
    ⟨notLast, nonzero, fits, result⟩
  · exact ⟨fun h => absurd last h, fun _ => ⟨_, run.trans fault, rfl⟩, fun h => absurd last h,
      fun h => absurd last h⟩
  · exact ⟨fun _ h => absurd zero h, fun h => absurd h notLast, fun _ _ => ⟨_, run.trans fault, rfl⟩,
      fun _ h => absurd zero h⟩
  · obtain ⟨large, faults⟩ := overflow
    rw [quotient] at large
    refine ⟨fun _ _ fits => ?_, fun h => absurd h notLast, fun _ h => absurd h nonzero,
      fun _ _ _ _ => ⟨_, run.trans fault, rfl⟩⟩
    rcases fits with small | wraps
    · exact absurd large small
    · rw [faults] at wraps; cases wraps
  · rw [quotient] at fits
    refine ⟨fun _ _ _ => ?_, fun h => absurd h notLast, fun _ h => absurd h nonzero,
      fun _ _ large faults => absurd ⟨large, faults⟩ fits⟩
    obtain ⟨first, second, others⟩ := readReg_writePair s (BitVec.ofInt 64 (signedQuotient xv yv))
      (BitVec.ofInt 64 (signedRemainder xv yv)) notLast _ rfl
    obtain ⟨regs, silent, ip, bytes, world⟩ := silentFlags_advance_kept (s := s)
      (w := (s.writeReg z (BitVec.ofInt 64 (signedQuotient xv yv))).writeReg (z + 1)
        (BitVec.ofInt 64 (signedRemainder xv yv)))
      rfl rfl
    refine ⟨_, run.trans result, ?_, ?_, silent, ip, fun r hr => (regs r).trans (others r hr), bytes, world⟩
    · rw [← quotient]; exact (regs z).trans first
    · rw [← quotient]; exact (regs _).trans second

/-- Settles O30: the two clauses of `idivqQuotient` about the quotient 2^63. -/
theorem idivqOverflowCase : Obligations.IdivqOverflowCase := by
  refine ⟨fun x y z => ⟨decodeFields_idivqReg x y z, decodeFields_idivqImm x y z⟩, rfl,
    fun x y z s i form hy hz => ?_⟩
  have operands : i = .idivqReg x y z ∧ -1 = (s.readReg x).toInt ∨ i = .idivqImm x y z ∧ -1 = x.toInt := by
    rcases form with ⟨rfl, hx⟩ | ⟨rfl, rfl⟩
    · exact .inl ⟨rfl, hx.symm⟩
    · exact .inr ⟨rfl, rfl⟩
  obtain ⟨-, -, divides⟩ := idivqQuotient x y z s
  obtain ⟨completes, -, -, overflows⟩ := divides i (-1) (-2 ^ 63) 1 (2 ^ 63) operands hy.symm rfl rfl
  exact ⟨overflows hz (by decide) rfl, fun wraps => completes hz (by decide) (.inr wraps)⟩

/-- Settles O28: the clauses of `divqQuotient` and `idivqQuotient` about the divisor 0. -/
theorem divideByZeroFaults : Obligations.DivideByZeroFaults := by
  refine ⟨fun x y z => ⟨decodeFields_divqReg x y z, decodeFields_divqImm x y z, decodeFields_idivqReg x y z,
    decodeFields_idivqImm x y z⟩, rfl, fun x y z s => ?_⟩
  obtain ⟨-, -, divides⟩ := divqQuotient x y z s
  obtain ⟨-, -, signedDivides⟩ := idivqQuotient x y z s
  refine ⟨fun zero hy hz => ?_, fun zero hy hz => ?_, fun zero hz => ?_, fun zero hz => ?_⟩
  · obtain ⟨-, -, -, byZero⟩ := divides _ 0 _ (.inl ⟨rfl, zero.symm⟩) rfl
    exact byZero hy hz rfl
  · obtain ⟨-, -, -, byZero⟩ := divides _ 0 _ (.inr ⟨rfl, zero.symm⟩) rfl
    exact byZero hy hz rfl
  · obtain ⟨-, -, byZero, -⟩ := signedDivides _ 0 _ _ _ (.inl ⟨rfl, zero.symm⟩) rfl rfl rfl
    exact byZero hz rfl
  · obtain ⟨-, -, byZero, -⟩ := signedDivides _ 0 _ _ _ (.inr ⟨rfl, zero.symm⟩) rfl rfl rfl
    exact byZero hz rfl

/-! ### The signed quotient rounds toward zero -/

/-- R110's formula for the quotient is division rounded toward zero: where the product of the operands is not
positive, either they have opposite signs or the quotient is 0. -/
theorem signedQuotient_eq_tdiv (xv yv : Int) : signedQuotient xv yv = yv.tdiv xv := by
  have size : (yv.tdiv xv).natAbs = yv.natAbs / xv.natAbs := Int.natAbs_tdiv yv xv
  rw [← Int.sign_mul_natAbs (yv.tdiv xv), size, signedQuotient]
  by_cases small : yv.natAbs / xv.natAbs = 0
  · simp [small]
  · obtain ⟨divisor, le⟩ : xv.natAbs ≠ 0 ∧ xv.natAbs ≤ yv.natAbs := by
      rw [Nat.div_eq_zero_iff] at small
      omega
    have sign : (yv.tdiv xv).sign = (yv * xv).sign := by rw [Int.sign_tdiv, if_neg (by omega), Int.sign_mul]
    rw [sign]
    split
    · next positive => rw [Int.sign_eq_one_of_pos positive]
    · next notPositive =>
      have nonzero : yv * xv ≠ 0 := mul_ne_zero (by omega) (by omega)
      rw [Int.sign_eq_neg_one_of_neg (by omega)]

/-- The remainder of division rounded toward zero is smaller than the divisor and has the dividend's sign. -/
theorem tmod_bounds (n : Int) {d : Int} (hd : d ≠ 0) :
    (n.tmod d).natAbs < d.natAbs ∧ (0 ≤ n → 0 ≤ n.tmod d) ∧ (n ≤ 0 → n.tmod d ≤ 0) := by
  refine ⟨?_, Int.tmod_nonneg d, fun h => ?_⟩
  · rw [Int.natAbs_tmod]
    exact Nat.mod_lt _ (by omega)
  · have opposite := Int.tmod_nonneg d (a := -n) (by omega)
    rw [Int.neg_tmod] at opposite
    omega

/-- Of 64-bit operands, only -2^63 by -1 has a quotient outside the signed range (R115). -/
theorem tdiv_lt_of_not_overflow {n d : Int} (hl : -2 ^ 63 ≤ n) (hu : n < 2 ^ 63) (hd : d ≠ 0)
    (ho : ¬(n = -2 ^ 63 ∧ d = -1)) : -2 ^ 63 ≤ n.tdiv d ∧ n.tdiv d < 2 ^ 63 := by
  have size := Int.natAbs_tdiv_le_natAbs n d
  obtain ⟨smaller, -, nonpos⟩ := tmod_bounds n hd
  have division := Int.mul_tdiv_add_tmod n d
  have notLarge : n.tdiv d ≠ 2 ^ 63 := fun large => by
    rw [large] at division size
    omega
  omega

/-- A number in the signed 64-bit range is the signed value of its pattern (R12). -/
theorem toInt_pattern {n : Int} (hl : -2 ^ 63 ≤ n) (hu : n < 2 ^ 63) : (BitVec.ofInt 64 n).toInt = n :=
  BitVec.toInt_ofInt_eq_self (by decide) hl hu

/-- Settles O31: quotient and remainder of `idivqQuotient` are `Int.tdiv` and `Int.tmod`, and both fit. -/
theorem idivqRoundsTowardZero : Obligations.IdivqRoundsTowardZero := by
  intro x y z s i d n form hn hz hd noOverflow
  have lower : -2 ^ 63 ≤ n := hn ▸ BitVec.le_toInt (s.readReg y)
  have upper : n < 2 ^ 63 := hn ▸ BitVec.toInt_lt
  obtain ⟨quotientLower, quotientUpper⟩ := tdiv_lt_of_not_overflow lower upper hd noOverflow
  obtain ⟨smaller, nonneg, nonpos⟩ := tmod_bounds n hd
  obtain ⟨-, -, divides⟩ := idivqQuotient x y z s
  obtain ⟨completes, -, -, -⟩ := divides i d n _ (signedQuotient d n) form hn rfl rfl
  rw [signedQuotient_eq_tdiv, ← Int.tmod_def] at completes
  obtain ⟨t, run, received, remainder, -⟩ := completes hz hd (.inl quotientUpper.ne)
  have divisorBound : d.natAbs ≤ 2 ^ 63 := by
    rcases form with ⟨-, rfl⟩ | ⟨-, rfl⟩
    · have above := BitVec.le_toInt (s.readReg x)
      have below : (s.readReg x).toInt < 2 ^ 63 := BitVec.toInt_lt
      omega
    · have above := BitVec.le_toInt x
      have below : x.toInt < 2 ^ 7 := BitVec.toInt_lt
      omega
  have signed : (t.readReg (z + 1)).toInt = n.tmod d := by
    rw [remainder]
    exact toInt_pattern (by omega) (by omega)
  refine ⟨t, n.tdiv d, run, fun nonzero => ?_, fun zero => ?_, ?_⟩
  · rw [received, if_neg nonzero]
    exact toInt_pattern quotientLower quotientUpper
  · rw [received, if_pos zero]
  · rw [signed]
    exact ⟨(Int.mul_tdiv_add_tmod n d).symm, smaller, nonneg, nonpos⟩

end Sys2Proof.Machine
end

section
/-! Proofs about bitwise logic and shifts (spec/41_logic_shift.md): the three logic instructions bit by bit (R120 to
R122, R129), and the shifts for every count (R123 to R128, R130). Each instruction is one register write: with ZF
alone after it for the logic, with the silent flags after it for the shifts. -/

namespace Sys2Proof.Machine

/-! ### Bitwise logic -/

/-- ZF of a result, bit by bit (R120). -/
theorem zeroFlag_iff_getLsbD (r : Word) : zeroFlag r = true ↔ ∀ k, k < 64 → r.getLsbD k = false := by
  rw [zeroFlag_iff]
  constructor
  · rintro rfl k -
    exact BitVec.getLsbD_zero
  · intro clear
    exact BitVec.eq_of_getLsbD_eq fun k hk => (clear k hk).trans BitVec.getLsbD_zero.symm

/-- The whole next state of a bitwise instruction: `%z`, ZF and `%ip` (R129). -/
theorem logicInto_spec (z : Reg) (r : Word) (s : State) :
    ∃ t, logicInto z r s = .next t ∧ t.Received z r ∧ t.flags = s.flags.withZero (zeroFlag r) ∧
      t.ip = s.nextIp ∧ s.OnlyRegs t [z] :=
  putResult_spec s z r (s.flags.withZero (zeroFlag r))

/-- Settles O33: each instruction is `logicInto` of a word whose bits are the ones asked for, and its ZF says that
they are all 0. -/
theorem bitwiseLogic : Obligations.BitwiseLogic := by
  refine fun x y z s => ⟨decodeFields_andq x y z, decodeFields_orq x y z, decodeFields_notq x y z,
    fun i d bit form => ?_⟩
  have ⟨r, run, bits⟩ : ∃ r : Word, exec i s = logicInto d r s ∧ ∀ k, k < 64 → r.getLsbD k = bit k := by
    rcases form with ⟨rfl, rfl, rfl⟩ | ⟨rfl, rfl, rfl⟩ | ⟨rfl, rfl, rfl⟩
    · exact ⟨_, exec_andq s _ _ _, fun _ _ => BitVec.getLsbD_and⟩
    · exact ⟨_, exec_orq s _ _ _, fun _ _ => BitVec.getLsbD_or⟩
    · exact ⟨_, exec_notq s _ _, fun k hk => by rw [BitVec.getLsbD_not, decide_eq_true hk, Bool.true_and]⟩
  obtain ⟨t, result, received, flags, ip, kept⟩ := logicInto_spec d r s
  refine ⟨t, r, run.trans result, bits, received, ?_, ?_, ?_, ?_, ip, kept⟩
  · have sameBits : (∀ k, k < 64 → r.getLsbD k = false) ↔ ∀ k, k < 64 → bit k = false :=
      forall₂_congr fun k hk => by rw [bits k hk]
    rw [flags, ← sameBits]
    exact zeroFlag_iff_getLsbD r
  · rw [flags]; rfl
  · rw [flags]; rfl
  · rw [flags]; rfl

/-! ### Shifts -/

/-- The state after a register write, the silent flags and the advance: all of a right shift, and a left shift but
for its carry (R29). -/
theorem writeReg_silentFlags_advance_spec {s t : State} {z : Reg} {r : Word}
    (ht : t = (s.writeReg z r).silentFlags.advance) :
    t.Received z r ∧ s.SilentKept t ∧ t.ip = s.nextIp ∧ s.RegsKept t [z] ∧ s.BytesKept t ∧ s.WorldKept t := by
  obtain ⟨regs, silent, ip, bytes, world⟩ := silentFlags_advance_kept (s := s) rfl ht
  refine ⟨(regs z).trans (readReg_writeReg_dest s z r), silent, ip, fun q hq => ?_, bytes, world⟩
  exact (regs q).trans (readReg_writeReg_ne s r (List.ne_of_not_mem_cons hq))

theorem shiftRightInto_eq (z : Reg) (r : Word) (s : State) :
    shiftRightInto z r s = .next (s.writeReg z r).silentFlags.advance := rfl

/-- A left shift sets its carry on top of the silent flags (R123, R29). -/
theorem shiftLeftInto_eq {n : Nat} {y z : Reg} {s t : State}
    (ht : t = (s.writeReg z (shiftedLeft n (s.readReg y))).silentFlags.advance) :
    shiftLeftInto n y z s = .next (t.setFlags (t.flags.withCarry (shiftLeftCarry n (s.readReg y)))) := by
  subst ht
  rfl

/-- A count of 64 or more clears CF (R123). -/
theorem shiftLeftCarry_of_le {n : Nat} (b : Word) (h : 64 ≤ n) : shiftLeftCarry n b = false := by
  simp [shiftLeftCarry, h.not_gt]

/-- Below a count of 64, CF is bit `64 - n` of the value shifted (R123). -/
theorem shiftLeftCarry_iff {n : Nat} (b : Word) (h : n < 64) :
    shiftLeftCarry n b = true ↔ b.toNat / 2 ^ (64 - n) % 2 = 1 := by
  simp [shiftLeftCarry, h]

/-- Settles O34: all four spellings are `shiftLeftInto` by the count. -/
theorem shiftLeft : Obligations.ShiftLeft := by
  refine fun x y z s => ⟨decodeFields_shlqReg x y z, decodeFields_shlqImm x y z, fun i n form => ?_⟩
  have run : exec i s = shiftLeftInto n y z s := by
    rcases form with ⟨rfl | rfl, rfl⟩ | ⟨rfl | rfl, rfl⟩ <;> rfl
  obtain ⟨t, ht⟩ : ∃ t, t = (s.writeReg z (shiftedLeft n (s.readReg y))).silentFlags.advance := ⟨_, rfl⟩
  obtain ⟨received, silent, ip, regs, bytes, world⟩ := writeReg_silentFlags_advance_spec ht
  rw [shiftedLeft_eq] at received
  refine ⟨_, run.trans (shiftLeftInto_eq ht), received, shiftLeftCarry_of_le _, shiftLeftCarry_iff _,
    fun unchanged => ?_, ip, regs, bytes, world⟩
  obtain ⟨flags, draws⟩ := silent unchanged
  rw [setFlags_flags, flags]
  exact ⟨rfl, rfl, rfl, draws⟩

/-- Settles O35: each form is `shiftRightInto` of the floor of the division. -/
theorem rightShifts : Obligations.RightShifts := by
  refine fun x y z s => ⟨decodeFields_shrqReg x y z, decodeFields_shrqImm x y z, decodeFields_sarqReg x y z,
    decodeFields_sarqImm x y z, fun i r form => ?_⟩
  have run : exec i s = shiftRightInto z r s := by
    rcases form with ⟨rfl, rfl⟩ | ⟨rfl, rfl⟩ | ⟨rfl, rfl⟩ | ⟨rfl, rfl⟩
    · rw [exec_shrqReg, shiftedRight_eq]
    · rw [exec_shrqImm, shiftedRight_eq]
    · rw [exec_sarqReg, shiftedRightSigned_eq]
    · rw [exec_sarqImm, shiftedRightSigned_eq]
  exact ⟨_, run.trans (shiftRightInto_eq z r s), writeReg_silentFlags_advance_spec rfl⟩

end Sys2Proof.Machine
end

section
/-! Proofs about the system instructions (spec/42_io_system.md): nop (R140), the devices (R141 to R143, R147,
R152), halt (R144 to R146, R153) and traps 0 and 1 (R149, R150). The next state of each is an equation of
Sys2Proof/Laws/Exec.lean or of this section; its fields are those of Sys2Proof/Laws/State.lean. -/

namespace Sys2Proof.Machine

/-! ### Stopped machines, and the plain advance -/

theorem step_of_halted {s : State} {c : Byte} (h : s.status = .halted c) : step s = .fault (.machineHalted c) := by
  simp [step, h]

theorem step_of_faulted {s : State} {f : RaisedFault} (h : s.status = .faulted f) :
    step s = .fault (.machineFaulted f) := by
  simp [step, h]

/-- Settles O9: one clause for each way of being stopped. -/
theorem stoppedMachineTakesNoStep : Obligations.StoppedMachineTakesNoStep :=
  ⟨fun _ _ => step_of_halted, fun _ _ => step_of_faulted⟩

/-- Sequential advance as a record update, its target as R25 writes it. -/
theorem advance_eq (s : State) : s.advance = { s with ip := s.nextIp } :=
  congrArg s.setIp (advance_ip_eq_nextIp s)

/-- Settles O39: nop is the advance alone. -/
theorem nopAdvances : Obligations.NopAdvances := fun x y z s =>
  ⟨decodeFields_nop x y z, by rw [exec_nop, finish_eq, advance_eq]⟩

/-! ### getc -/

theorem execGetc_of_nil {s : State} (x : Reg) (h : s.input = []) : execGetc x s = .next s := by
  simp [execGetc, h]

theorem execGetc_of_cons {s : State} {c : Byte} {rest : List Byte} (x : Reg) (h : s.input = c :: rest) :
    execGetc x s = .next (s.consumeInput x c rest).advance := by
  simp [execGetc, h]

/-- A byte put below the upper 56 bits of a word (R142). -/
theorem toNat_upper_append_byte (w : Word) (c : Byte) :
    (w.extractLsb' 8 56 ++ c).toNat = w.toNat / 2 ^ 8 * 256 + c.toNat := by
  have bound : w.toNat / 2 ^ 8 < 2 ^ 56 := by have := w.isLt; omega
  rw [toNat_append_byte, BitVec.extractLsb'_toNat, Nat.shiftRight_eq_div_pow, Nat.mod_eq_of_lt bound]

section
variable {s : State} (x : Reg) (c : Byte)

/-- Under `GETC_UPPER = zero` the destination receives the input byte (R142). -/
theorem getcValue_of_zero (h : s.platform.getcUpper = .zero) : getcValue s x c = BitVec.ofNat 64 c.toNat := by
  simp only [getcValue, h]
  exact zeroExtended8_eq c

/-- Under `GETC_UPPER = keep` the byte goes below the destination's upper bits (R142). -/
theorem getcValue_of_keep (h : s.platform.getcUpper = .keep) :
    getcValue s x c = (s.readReg x).extractLsb' 8 56 ++ c := by
  simp only [getcValue, h]

/-- Under `GETC_UPPER = any` the byte goes below a free value's upper bits (R142, log entry 34). -/
theorem getcValue_of_any (h : s.platform.getcUpper = .any) :
    getcValue s x c = (Config.freeWord s.draws).extractLsb' 8 56 ++ c := by
  simp only [getcValue, h]

/-- The low byte is the input byte under each value of `GETC_UPPER` (R142). -/
theorem getcValue_low : (getcValue s x c).toNat % 2 ^ 8 = c.toNat := by
  have byte := c.isLt
  cases h : s.platform.getcUpper with
  | zero => rw [getcValue_of_zero x c h, toNat_pattern]; omega
  | keep => rw [getcValue_of_keep x c h, toNat_upper_append_byte]; omega
  | any => rw [getcValue_of_any x c h, toNat_upper_append_byte]; omega

theorem getcValue_upper_of_keep (h : s.platform.getcUpper = .keep) :
    (getcValue s x c).toNat / 2 ^ 8 = (s.readReg x).toNat / 2 ^ 8 := by
  have byte := c.isLt
  rw [getcValue_of_keep x c h, toNat_upper_append_byte]
  omega

/-- A free value is drawn under `GETC_UPPER = any` alone. -/
theorem getcDraws_of_ne_any (h : s.platform.getcUpper ≠ .any) : getcDraws s = s.draws := by
  unfold getcDraws
  split
  · rfl
  · rfl
  · next isAny => exact absurd isAny h

end

/-- Settles O40: `%x` receives `getcValue`, of which the low byte and the bits above it are said by the
lemmas on it. -/
theorem getcConsumesByte : Obligations.GetcConsumesByte := by
  intro x y z s c rest input
  refine ⟨decodeFields_getc x y z, (s.consumeInput x c rest).advance, execGetc_of_cons x input, rfl, ?_⟩
  have received : (s.consumeInput x c rest).advance.Received x (getcValue s x c) :=
    readReg_writeReg_dest s x (getcValue s x c)
  have value (hx : x ≠ 0) : (s.consumeInput x c rest).advance.readReg x = getcValue s x c :=
    received.trans (if_neg hx)
  refine ⟨fun hx => ?_, fun zero => ?_, fun keep hx => ?_, getcDraws_of_ne_any, advance_ip_eq _, rfl,
    fun q hq => readReg_consumeInput_ne s c rest (List.ne_of_not_mem_cons hq), fun _ => rfl,
    rfl, rfl, rfl, rfl, rfl⟩
  · rw [value hx, getcValue_low]
  · rwa [getcValue_of_zero x c zero] at received
  · rw [value hx, getcValue_upper_of_keep x c keep]

/-- Settles O41: the bytes supplied to an empty input are the whole input. -/
theorem getcWaits : Obligations.GetcWaits := by
  intro x s empty
  refine ⟨execGetc_of_nil x empty, fun c rest => ?_⟩
  have input : (s.supplyInput (c :: rest)).input = c :: rest := by rw [supplyInput_input, empty, List.nil_append]
  exact ⟨_, execGetc_of_cons x input, rfl, advance_ip_eq _⟩

/-! ### putc and halt -/

/-- The low byte of a word as a number (R143, R144). -/
theorem lowByte_eq (w : Word) : w.extractLsb' 0 8 = BitVec.ofNat 8 (w.toNat % 2 ^ 8) := by
  apply BitVec.eq_of_toNat_eq
  simp

/-- Settles O42: both forms push one byte and advance. -/
theorem putcAppends : Obligations.PutcAppends := by
  refine fun x y z s => ⟨decodeFields_putcReg x y z, decodeFields_putcImm x y z, fun i b form => ?_⟩
  have run : exec i s = .next (s.pushOutput b).advance := by
    rcases form with ⟨rfl, rfl⟩ | ⟨rfl, rfl⟩
    · rw [exec_putcReg, lowByte_eq, finish_eq]
    · exact exec_putcImm s b
  rw [run, advance_eq]
  rfl

/-- Without a last cell halt leaves the memory alone (R146). -/
theorem haltedMemory_of_none {s : State} (c : Byte) (h : s.platform.lastCell = none) :
    haltedMemory s c = s.mem := by
  simp only [haltedMemory, h]

/-- The last cell holds the exit code after halt (R146). -/
theorem read_haltedMemory_lastCell {s : State} {l : Word} (hm : s.mem.wf = true) (c : Byte)
    (h : s.platform.lastCell = some l) : (haltedMemory s c).read l.toNat = c := by
  simp only [haltedMemory, h]
  exact Memory.read_write_self hm l.toNat c

/-- Settles O43: both forms are `State.halt`, whose memory is the laws' of `haltedMemory`. -/
theorem haltStops : Obligations.HaltStops := by
  refine fun x y z s => ⟨decodeFields_haltReg x y z, decodeFields_haltImm x y z, fun i c wf form => ?_⟩
  have run : exec i s = .next (s.halt c) := by
    rcases form with ⟨rfl, rfl⟩ | ⟨rfl, rfl⟩
    · rw [exec_haltReg, lowByte_eq]
    · exact exec_haltImm s c
  refine ⟨_, run, rfl, rfl, rfl, fun _ _ => rfl, fun noCell => ?_, fun l last => ⟨?_, ?_⟩, rfl, rfl, rfl, rfl, rfl,
    rfl, fun u stepped => ?_⟩
  · intro b
    rw [halt_mem, haltedMemory_of_none c noCell]
  · exact read_haltedMemory_lastCell wf c last
  · intro b outside
    refine read_haltedMemory s c fun l' last' => ?_
    obtain rfl : l = l' := Option.some.inj (last.symm.trans last')
    simpa using outside 0 Nat.one_pos
  · rw [step_of_halted (halt_status s c)] at stepped
    cases stepped

/-! ### Traps 0 and 1: dispatch and outcomes -/

section
variable {x y z : Reg} {p : Word} {s : State} {b : ParamBlock}

theorem execTrap_of_zero (hx : (s.readReg x).toNat = 0) : execTrap x y z s = trapRead (s.readReg y) z s := by
  have h0 : s.readReg x = 0 := BitVec.eq_of_toNat_eq hx
  simp only [execTrap, if_pos h0]

theorem execTrap_of_one (hx : (s.readReg x).toNat = 1) : execTrap x y z s = trapWrite (s.readReg y) z s := by
  have h1 : s.readReg x = 1 := BitVec.eq_of_toNat_eq hx
  simp [execTrap, h1]

/-- A read whose block is readable and whose buffer exists completes (R149). -/
theorem trapRead_of_admitted (z : Reg) (hb : s.paramBlock p = .ok b) (ha : s.BufferAdmitted b.buf b.nbyte) :
    trapRead p z s =
      .next (((s.setMem (s.mem.writeBytes b.buf (readData (s.readReply b.fd b.nbyte)))).recordHost
        (.read b.fd b.nbyte (s.readReply b.fd b.nbyte)) (afterRead s.hostReplies)).writeReg z
          (readValue (s.readReply b.fd b.nbyte))).advance := by
  simp [trapRead, hb, (firstUnadmitted_none _ _ _).2 ha, trapReturn]

/-- A write whose block is readable and whose buffer exists completes (R150). -/
theorem trapWrite_of_admitted (z : Reg) (hb : s.paramBlock p = .ok b) (ha : s.BufferAdmitted b.buf b.nbyte)
    {data : List Byte} (hd : s.mem.readBytes b.buf b.nbyte = data) :
    trapWrite p z s =
      .next ((s.recordHost (.write b.fd data (s.writeReply b.fd data)) (afterWrite s.hostReplies)).writeReg z
        (writeValue (s.writeReply b.fd data))).advance := by
  simp [trapWrite, hb, hd, (firstUnadmitted_none _ _ _).2 ha, trapReturn]

/-- The byte at which the check of a buffer stops (R149, R150, log entry 20). -/
theorem firstUnadmitted_of_first_absent {a : Word} {m n : Nat} (hn : n < m) (ha : s.BufferAdmitted a n)
    (hp : s.platform.admits (a + BitVec.ofNat 64 n) 1 = false) :
    s.platform.firstUnadmitted a m = some (a + BitVec.ofNat 64 n) :=
  (firstUnadmitted_some _ _ _ _).2 ⟨n, hn, rfl, hp, ha⟩

theorem trapRead_of_absent {a : Word} (z : Reg) (hb : s.paramBlock p = .ok b)
    (ha : s.platform.firstUnadmitted b.buf b.nbyte = some a) :
    trapRead p z s = .next (s.raise (.memoryAccessFault a)) := by
  simp [trapRead, hb, ha]

theorem trapWrite_of_absent {a : Word} (z : Reg) (hb : s.paramBlock p = .ok b)
    (ha : s.platform.firstUnadmitted b.buf b.nbyte = some a) :
    trapWrite p z s = .next (s.raise (.memoryAccessFault a)) := by
  simp [trapWrite, hb, ha]

/-- The buffer's size is a 64-bit number (R151). -/
theorem paramBlock_nbyte_lt (hb : s.paramBlock p = .ok b) : b.nbyte < 2 ^ 64 := by
  rcases paramBlock_cases s p with ⟨-, block⟩ | ⟨-, -, block⟩ | ⟨-, -, block⟩
  · rw [block] at hb; cases hb
  · have fields := Except.ok.inj (block.symm.trans hb)
    have size : b.nbyte = s.memValue (p + 16) 8 := by
      rw [← fields]
      exact bigEndianValue_readBytes ..
    have bound := memValue_lt s (p + 16) 8
    omega
  · rw [block] at hb; cases hb

end

/-- The bytes read, each by its address. -/
theorem Memory.readBytes_eq_map (m : Memory) (a : Word) (n : Nat) :
    m.readBytes a n = (List.range n).map fun j => m.read (a + BitVec.ofNat 64 j).toNat := by
  apply List.ext_getElem
  · simp
  · intro i hi _
    rw [Memory.getElem_readBytes m a n i (by simpa using hi), List.getElem_map, List.getElem_range]

/-! ### Answers put ready -/

/-- A ready answer to a read that keeps the host's contract is given as it stands (log entry 16). -/
theorem readReply_of_ready {s : State} {bs : List Byte} {q : List HostReply} (fd : Int) {n : Nat}
    (h : s.hostReplies = .read (.ok bs) :: q) (hl : bs.length ≤ n) : s.readReply fd n = .ok bs := by
  simp only [State.readReply, h, boundedRead, List.take_of_length_le hl]

theorem afterRead_of_ready {rs q : List HostReply} {r : ReadReply} (h : rs = .read r :: q) : afterRead rs = q := by
  rw [h, afterRead]

/-- A ready answer to a write that keeps the host's contract is given as it stands (log entry 16). -/
theorem writeReply_of_ready {s : State} {k : Nat} {q : List HostReply} (fd : Int) {data : List Byte}
    (h : s.hostReplies = .write (.ok k) :: q) (hl : k ≤ data.length) : s.writeReply fd data = .ok k := by
  simp only [State.writeReply, h, boundedWrite, Nat.min_eq_left hl]

theorem afterWrite_of_ready {rs q : List HostReply} {r : WriteReply} (h : rs = .write r :: q) :
    afterWrite rs = q := by
  rw [h, afterWrite]

/-! ### The obligations on traps 0 and 1 -/

/-- The state after a trap's exchange with the host: the return value in `%z`, the memory `m`, the exchange
recorded, and all else as before but `%ip` (R148). -/
theorem recordHost_writeReg_advance_spec {s t : State} {m : Memory} {e : HostEvent} {rs : List HostReply} {z : Reg}
    {v : Word} (ht : t = (((s.setMem m).recordHost e rs).writeReg z v).advance) :
    t.Received z v ∧ t.mem = m ∧ t.hostReplies = rs ∧ t.hostLog = s.hostLog ++ [e] ∧ t.ip = s.nextIp ∧
      t.flags = s.flags ∧ s.RegsKept t [z] ∧ t.status = s.status ∧ t.input = s.input ∧ t.output = s.output ∧
      t.platform = s.platform ∧ t.draws = s.draws := by
  subst ht
  exact ⟨readReg_writeReg_dest _ z v, rfl, rfl, rfl, advance_ip_eq _, rfl,
    fun q hq => readReg_writeReg_ne _ _ (List.ne_of_not_mem_cons hq), rfl, rfl, rfl, rfl, rfl⟩

/-- Settles O45: the memory is that of `Memory.writeBytes` with at most 2^64 bytes, none for an error. -/
theorem trapReadTransfers : Obligations.TrapReadTransfers := by
  intro x y z s b r number block reply
  have dispatch : exec (.trap x y z) s = trapRead (s.readReg y) z s := execTrap_of_zero number
  constructor
  · intro wf buffer
    have completed := trapRead_of_admitted z block buffer
    rw [← reply] at completed
    obtain ⟨t, ht⟩ : ∃ t, t = (((s.setMem (s.mem.writeBytes b.buf (readData r))).recordHost
      (.read b.fd b.nbyte r) (afterRead s.hostReplies)).writeReg z (readValue r)).advance := ⟨_, rfl⟩
    rw [← ht] at completed
    obtain ⟨received, mem, replies, frame⟩ := recordHost_writeReg_advance_spec ht
    refine ⟨t, dispatch.trans completed, fun bs delivered => ?_, fun e h failed => ?_,
      fun bs q ready fits => ?_, frame⟩
    · have bounded : bs.length ≤ b.nbyte := readReply_bounded s b.fd b.nbyte (reply.symm.trans delivered)
      have small : bs.length ≤ 2 ^ 64 := bounded.trans (paramBlock_nbyte_lt block).le
      rw [delivered] at received mem
      refine ⟨bounded, received, fun j hj => ?_, fun a outside => ?_⟩
      · rw [mem]; exact Memory.read_writeBytes_inside wf b.buf bs small hj
      · rw [mem]; exact Memory.read_writeBytes_outside s.mem b.buf bs outside
    · rw [failed] at received mem
      exact ⟨received, fun a => by rw [mem]; rfl⟩
    · exact ⟨reply.trans (readReply_of_ready b.fd ready fits), replies.trans (afterRead_of_ready ready)⟩
  · intro n inside before absent
    have first := firstUnadmitted_of_first_absent inside before absent
    exact ⟨_, dispatch.trans (trapRead_of_absent z block first), rfl⟩

/-- Settles O46: the bytes given to the host are those of the buffer, and their number bounds its answer. -/
theorem trapWriteTransfers : Obligations.TrapWriteTransfers := by
  intro x y z s b data r number block buffered reply
  have dispatch : exec (.trap x y z) s = trapWrite (s.readReg y) z s := execTrap_of_one number
  have bytes : s.mem.readBytes b.buf b.nbyte = data := (Memory.readBytes_eq_map ..).trans buffered.symm
  have size : data.length = b.nbyte := by rw [← bytes, Memory.length_readBytes]
  constructor
  · intro buffer
    have completed := trapWrite_of_admitted z block buffer bytes
    rw [← reply] at completed
    obtain ⟨t, ht⟩ : ∃ t, t = ((s.recordHost (.write b.fd data r) (afterWrite s.hostReplies)).writeReg z
      (writeValue r)).advance := ⟨_, rfl⟩
    rw [← ht] at completed
    obtain ⟨received, mem, replies, hostLog, frame⟩ := recordHost_writeReg_advance_spec (m := s.mem) ht
    refine ⟨t, dispatch.trans completed, fun k accepted => ?_, fun e h failed => ?_,
      fun k q ready fits => ?_, hostLog, mem, frame⟩
    · rw [accepted] at received
      exact ⟨size ▸ writeReply_bounded s b.fd data (reply.symm.trans accepted), received⟩
    · rwa [failed] at received
    · exact ⟨reply.trans (writeReply_of_ready b.fd ready (size.symm ▸ fits)),
        replies.trans (afterWrite_of_ready ready)⟩
  · intro n inside before absent
    have first := firstUnadmitted_of_first_absent inside before absent
    exact ⟨_, dispatch.trans (trapWrite_of_absent z block first), rfl⟩

end Sys2Proof.Machine
end

section
/-! Proofs about the jumps (spec/43_jumps.md): the register form with its link (R161), the relative form (R162), and
the ten conditional jumps under both of their spellings (R163 to R173). -/

namespace Sys2Proof.Machine

/-! ### jmp -/

/-- One register written and `%ip` set: the register holds the value, `%ip` the target, all else is as before. -/
theorem writeReg_setIp_spec {s t : State} {z : Reg} {v target : Word} (ht : t = (s.writeReg z v).setIp target) :
    t.ip = target ∧ t.Received z v ∧ t.flags = s.flags ∧ s.OnlyRegs t [z] := by
  subst ht
  exact ⟨rfl, readReg_writeReg_dest s z v, rfl,
    fun _ hq => readReg_writeReg_ne s v (List.ne_of_not_mem_cons hq), fun _ => rfl, ⟨rfl, rfl, rfl, rfl, rfl, rfl⟩, rfl⟩

/-- Settles O49: the target is `%x` of the state before the link is written, also for `x = y`. -/
theorem jmpRegisterLinks : Obligations.JmpRegisterLinks := by
  intro x y z s
  have link : s.ip + 4 = s.nextIp := advance_ip_eq_nextIp s
  exact ⟨decodeFields_jmpReg x y z, _, exec_jmpReg s x y, writeReg_setIp_spec (by rw [link])⟩

/-- Settles O50: R160's target is the model's `relativeTarget`. -/
theorem jmpRelative : Obligations.JmpRelative := by
  rintro x y z s o rfl
  exact ⟨decodeFields_jmpRel x y z, exec_jmpRel s _⟩

/-! ### The conditional jumps -/

/-- The flags a conditional jump is taken under, as R164 to R173 write them. -/
def Condition.takenUnder (c : Condition) (f : Flags) : Prop :=
  match c with
  | .equal => f.zf = true
  | .notEqual => f.zf = false
  | .less => f.sf ≠ f.of
  | .greaterEqual => f.sf = f.of
  | .lessEqual => f.zf = true ∨ f.sf ≠ f.of
  | .greater => f.zf = false ∧ f.sf = f.of
  | .below => f.cf = true
  | .aboveEqual => f.cf = false
  | .belowEqual => f.cf = true ∨ f.zf = true
  | .above => f.cf = false ∧ f.zf = false

/-- The model's Boolean test of the flags decides R164 to R173. -/
theorem holds_iff_takenUnder (c : Condition) (f : Flags) : c.holds f = true ↔ c.takenUnder f := by
  cases c with
  | equal => exact Iff.rfl
  | notEqual => exact Iff.of_eq (Bool.not_eq_true' _)
  | less => exact bne_iff_ne
  | greaterEqual => exact beq_iff_eq
  | lessEqual => rw [Condition.holds, Bool.or_eq_true, bne_iff_ne]; rfl
  | greater => rw [Condition.holds, Bool.and_eq_true, Bool.not_eq_true', beq_iff_eq]; rfl
  | below => exact Iff.rfl
  | aboveEqual => exact Iff.of_eq (Bool.not_eq_true' _)
  | belowEqual => exact Bool.or_eq_true_iff
  | above => rw [Condition.holds, Bool.and_eq_true, Bool.not_eq_true', Bool.not_eq_true']; rfl

/-- What an instruction does, whichever of two spellings of one meaning it has (R94). -/
theorem exec_of_spelling {i j k : Instr} {s : State} {r : Result} (spelling : i = j ∨ i = k) (hj : exec j s = r)
    (hk : exec k s = r) : exec i s = r := by
  rcases spelling with rfl | rfl
  · exact hj
  · exact hk

/-- Settles O51: both spellings of a row run `jumpIf` with the row's condition, which `jumpIf_spec` describes. -/
theorem conditionalJumps : Obligations.ConditionalJumps := by
  intro x y z s o operand
  refine ⟨?decoded, fun i taken row => ?executed⟩
  case decoded =>
    subst operand
    exact ⟨decodeFields_je x y z, decodeFields_jne x y z, decodeFields_jl x y z, decodeFields_jge x y z,
      decodeFields_jle x y z, decodeFields_jg x y z, decodeFields_jb x y z, decodeFields_jae x y z,
      decodeFields_jbe x y z, decodeFields_ja x y z⟩
  have ⟨c, run, asks⟩ : ∃ c : Condition, exec i s = jumpIf c o s ∧ (taken ↔ c.takenUnder s.flags) := by
    rcases row with ⟨spelled, h⟩ | ⟨spelled, h⟩ | ⟨spelled, h⟩ | ⟨spelled, h⟩ | ⟨spelled, h⟩ | ⟨spelled, h⟩ |
      ⟨spelled, h⟩ | ⟨spelled, h⟩ | ⟨spelled, h⟩ | ⟨spelled, h⟩
    · exact ⟨.equal, exec_of_spelling spelled (exec_je s o) (exec_jz s o), h⟩
    · exact ⟨.notEqual, exec_of_spelling spelled (exec_jne s o) (exec_jnz s o), h⟩
    · exact ⟨.less, exec_of_spelling spelled (exec_jl s o) (exec_jnge s o), h⟩
    · exact ⟨.greaterEqual, exec_of_spelling spelled (exec_jge s o) (exec_jnl s o), h⟩
    · exact ⟨.lessEqual, exec_of_spelling spelled (exec_jle s o) (exec_jng s o), h⟩
    · exact ⟨.greater, exec_of_spelling spelled (exec_jg s o) (exec_jnle s o), h⟩
    · exact ⟨.below, exec_of_spelling spelled (exec_jb s o) (exec_jnae s o), h⟩
    · exact ⟨.aboveEqual, exec_of_spelling spelled (exec_jae s o) (exec_jnb s o), h⟩
    · exact ⟨.belowEqual, exec_of_spelling spelled (exec_jbe s o) (exec_jna s o), h⟩
    · exact ⟨.above, exec_of_spelling spelled (exec_ja s o) (exec_jnbe s o), h⟩
  obtain ⟨t, jumped, goes, stays⟩ := jumpIf_spec c o s
  have reads : c.holds s.flags = true ↔ taken := (holds_iff_takenUnder c s.flags).trans asks.symm
  rw [reads] at goes stays
  exact ⟨t, run.trans jumped, goes, stays⟩

end Sys2Proof.Machine
end

section
/-! Proofs about load immediate (spec/44_load_immediate.md): the two extensions (R185, R186), the shift with an
immediate below (R187), and the sequence that loads a constant of 64 bits (R188), whose pieces stand in `%z` one
after another, 16 bits more at each step. -/

namespace Sys2Proof.Machine

/-! ### One instruction -/

/-- An extended immediate is zero exactly when the immediate is. -/
theorem signExtended16_eq_zero_iff (xy : Imm16) : signExtended16 xy = 0 ↔ xy = 0 := by
  rw [signExtended16, ← BitVec.toInt_inj, BitVec.toInt_signExtend_of_le (by decide), ← BitVec.toInt_inj]
  rfl

theorem zeroExtended16_eq_zero_iff (xy : Imm16) : zeroExtended16 xy = 0 ↔ xy = 0 := by
  rw [zeroExtended16, ← BitVec.toNat_inj, BitVec.toNat_setWidth_of_le (by decide), ← BitVec.toNat_inj]
  rfl

/-- A register write that sets ZF alone: what ldswq and ldzwq are (R185, R186). -/
theorem putResult_withZero_spec (s : State) (z : Reg) (r : Word) :
    ∃ t, putResult s z r (s.flags.withZero (zeroFlag r)) = .next t ∧ t.Received z r ∧
      (t.flags.zf = true ↔ r = 0) ∧ t.flags.cf = s.flags.cf ∧ t.flags.of = s.flags.of ∧
      t.flags.sf = s.flags.sf ∧ t.ip = s.nextIp ∧ s.OnlyRegs t [z] := by
  obtain ⟨t, result, received, flags, ip, kept⟩ := putResult_spec s z r (s.flags.withZero (zeroFlag r))
  refine ⟨t, result, received, ?_, ?_, ?_, ?_, ip, kept⟩ <;> rw [flags]
  · exact zeroFlag_iff r
  · rfl
  · rfl
  · rfl

/-- The next state of shldwq, with the result and the carry of the old `%z` (R187). -/
theorem shldwq_spec (s : State) (xy : Imm16) (z : Reg) :
    ∃ t, exec (.shldwq xy z) s = .next t ∧ t.Received z (shiftedIn (s.readReg z) xy) ∧
      t.flags.cf = shldwqCarry (s.readReg z) ∧
      (t.flags.zf = true ↔ shiftedIn (s.readReg z) xy = 0) ∧
      t.flags.of = s.flags.of ∧ t.flags.sf = s.flags.sf ∧ t.ip = s.nextIp ∧ s.OnlyRegs t [z] := by
  obtain ⟨t, result, received, flags, ip, kept⟩ := putResult_spec s z (shiftedIn (s.readReg z) xy)
    ((s.flags.withZero (zeroFlag (shiftedIn (s.readReg z) xy))).withCarry (shldwqCarry (s.readReg z)))
  refine ⟨t, (exec_shldwq s xy z).trans result, received, ?_, ?_, ?_, ?_, ip, kept⟩ <;> rw [flags]
  · rfl
  · exact zeroFlag_iff _
  · rfl
  · rfl

/-- Settles O36: each form writes an extended immediate `r`, which is zero only for the immediate 0. -/
theorem loadImmediateWord : Obligations.LoadImmediateWord := by
  intro x y z s xy operand
  refine ⟨operand ▸ decodeFields_ldswq x y z, operand ▸ decodeFields_ldzwq x y z, fun i v form => ?_⟩
  have ⟨r, run, value, zero⟩ : ∃ r : Word, exec i s = putResult s z r (s.flags.withZero (zeroFlag r)) ∧
      r = BitVec.ofInt 64 v ∧ (r = 0 ↔ xy = 0) := by
    rcases form with ⟨rfl, rfl⟩ | ⟨rfl, rfl⟩
    · exact ⟨_, exec_ldswq s _ z, signExtended16_eq _, signExtended16_eq_zero_iff _⟩
    · exact ⟨_, exec_ldzwq s _ z, zeroExtended16_eq _, zeroExtended16_eq_zero_iff _⟩
  rw [← value, ← zero, run]
  exact putResult_withZero_spec s z r

/-- Settles O37: `shldwq_spec` with the result and the carry as R187 writes them. -/
theorem shiftInWord : Obligations.ShiftInWord := by
  rintro x y z s xy rfl
  obtain ⟨t, result, received, carry, zero, frame⟩ := shldwq_spec s (x ++ y) z
  rw [shiftedIn_eq] at received zero
  refine ⟨decodeFields_shldwq x y z, t, result, received, ?_, ?_, frame⟩
  · rw [carry]; exact shldwqCarry_iff _
  · rw [zero, ← BitVec.toNat_inj, toNat_pattern]; rfl

/-! ### A constant in four pieces -/

theorem State.OnlyRegs.trans {s t u : State} {zs : List Reg} (h : s.OnlyRegs t zs) (h' : t.OnlyRegs u zs) :
    s.OnlyRegs u zs := by
  obtain ⟨regs, bytes, ⟨status, input, output, hostLog, hostReplies, platform⟩, draws⟩ := h
  obtain ⟨regs', bytes', ⟨status', input', output', hostLog', hostReplies', platform'⟩, draws'⟩ := h'
  exact ⟨fun r hr => (regs' r hr).trans (regs r hr), fun b => (bytes' b).trans (bytes b),
    ⟨status'.trans status, input'.trans input, output'.trans output, hostLog'.trans hostLog,
      hostReplies'.trans hostReplies, platform'.trans platform⟩, draws'.trans draws⟩

/-- A register other than `%0` holds what it received. -/
theorem State.Received.readReg_eq {t : State} {z : Reg} {v : Word} (h : t.Received z v) (hz : z ≠ 0) :
    t.readReg z = v :=
  h.trans (if_neg hz)

section
variable {n : Nat} (w : BitVec n)

/-- While at most 48 bits are held, shifting in 16 more appends them: no bit is lost. -/
theorem shiftedIn_setWidth (hn : n ≤ 48) (xy : Imm16) :
    shiftedIn (w.setWidth 64) xy = (w ++ xy).setWidth 64 := by
  have held : w.toNat < 2 ^ 48 := w.isLt.trans_le (Nat.pow_le_pow_right (by decide) hn)
  rw [shiftedIn_eq]
  apply BitVec.eq_of_toNat_eq
  rw [BitVec.toNat_setWidth_of_le (by omega), BitVec.toNat_ofNat, BitVec.toNat_setWidth, BitVec.toNat_append,
    ← Nat.shiftLeft_add_eq_or_of_lt xy.isLt, Nat.shiftLeft_eq]

/-- While at most 48 bits are held, the bit that shldwq shifts out last is 0. -/
theorem shldwqCarry_setWidth (hn : n ≤ 48) : shldwqCarry (w.setWidth 64) = false := by
  rw [shldwqCarry, BitVec.getLsbD_setWidth, BitVec.getLsbD_of_ge w 48 hn, Bool.and_false]

/-- One step of R188's sequence: to the at most 48 bits `w` in `%z` shldwq appends its immediate; CF is 0. -/
theorem shldwq_appends {s t : State} {z : Reg} (hn : n ≤ 48) (hz : z ≠ 0) (holds : t.readReg z = w.setWidth 64)
    (kept : s.OnlyRegs t [z]) (xy : Imm16) :
    ∃ u, exec (.shldwq xy z) t = .next u ∧ u.readReg z = (w ++ xy).setWidth 64 ∧ u.flags.cf = false ∧
      (u.flags.zf = true ↔ (w ++ xy).setWidth 64 = (0 : Word)) ∧ s.OnlyRegs u [z] := by
  obtain ⟨u, result, received, carry, zero, -, -, -, keptNext⟩ := shldwq_spec t xy z
  rw [holds, shiftedIn_setWidth w hn] at received zero
  rw [holds, shldwqCarry_setWidth w hn] at carry
  exact ⟨u, result, received.readReg_eq hz, carry, zero, kept.trans keptNext⟩

end

/-- Settles O38: ldzwq puts the first 16 bits into `%z`, and each shldwq appends 16 more. -/
theorem longConstant : Obligations.LongConstant := by
  rintro c3 c2 c1 c0 c z s rfl hz
  obtain ⟨t1, run1, received, -, -, -, -, -, kept1⟩ := putResult_withZero_spec s z (zeroExtended16 c3)
  have holds1 : t1.readReg z = c3.setWidth 64 := received.readReg_eq hz
  obtain ⟨t2, run2, holds2, -, -, kept2⟩ := shldwq_appends c3 (by decide) hz holds1 kept1 c2
  obtain ⟨t3, run3, holds3, -, -, kept3⟩ := shldwq_appends (c3 ++ c2) (by decide) hz holds2 kept2 c1
  obtain ⟨t4, run4, holds4, carry, zero, kept4⟩ := shldwq_appends (c3 ++ c2 ++ c1) (by decide) hz holds3 kept3 c0
  rw [BitVec.setWidth_eq] at holds4 zero
  exact ⟨t1, t2, t3, t4, (exec_ldzwq s c3 z).trans run1, run2, run3, run4, holds4, carry, zero, kept4⟩

end Sys2Proof.Machine
end

section
/-! Proofs about the stores (spec/45_stores.md): the bytes that a store leaves in memory with all it leaves alone
(R44, R200, R221), and its two faults (R223), said once for every width; each of the twenty opcodes is a store of
its width at the address of its form (R201 to R220). -/

namespace Sys2Proof.Machine

/-! ### Every width at once -/

/-- Why an aligned access never wraps past the end of the address space (R50). -/
theorem Width.bytes_dvd (w : Width) : w.bytes ∣ 2 ^ 64 := by
  cases w <;> decide

/-- A store asks for alignment first (R223). -/
theorem store_of_misaligned {w : Width} {a : Word} {s : State} (v : Word) (ha : a.toNat % w.bytes ≠ 0) :
    store w a v s = .next (s.raise (.alignmentFault a)) := by
  simp [store, State.memWrite, ha]

/-- An aligned store asks for its bytes to exist (R53, R223). -/
theorem store_of_absent {w : Width} {a : Word} {s : State} (v : Word) (ha : a.toNat % w.bytes = 0)
    (hp : s.platform.admits a w.bytes = false) : store w a v s = .next (s.raise (.memoryAccessFault a)) := by
  simp [store, State.memWrite, ha, hp]

section
variable {i : Instr} {s : State} {w : Width} {a v : Word} (run : exec i s = store w a v s)
include run

/-- An aligned store to existing bytes leaves the low bytes of its value there, big-endian, and all else as
before (R44, R200, R221). -/
theorem stores_of_exec_store : s.Stores i a w.bytes v := by
  intro wf aligned admitted
  refine ⟨_, run.trans (store_of_admitted v aligned admitted), fun j hj => ?stored, fun b outside => ?kept,
    advance_ip_eq_nextIp _, rfl, fun _ _ => rfl, ⟨rfl, rfl, rfl, rfl, rfl, rfl⟩, rfl⟩
  case stored =>
    have fits : w.bytes ≤ 2 ^ 64 := Nat.le_of_dvd (by decide) w.bytes_dvd
    have length := length_bigEndianBytes w.bytes v.toNat
    rw [← toNat_add_of_aligned w.bytes_dvd aligned hj, advance_mem, setMem_mem,
      Memory.read_writeBytes_inside wf a _ (length.trans_le fits) (hj.trans_eq length.symm),
      getElem_bigEndianBytes _ _ _ hj]
  case kept => exact Memory.read_writeBytes_outside s.mem a _ (by rwa [length_bigEndianBytes])

/-- A misaligned store changes the run status alone (R223). -/
theorem alignmentFaults_of_exec_store : s.AlignmentFaults i a w.bytes :=
  fun misaligned => ⟨_, run.trans (store_of_misaligned v misaligned), rfl⟩

/-- An aligned store to a byte that does not exist changes the run status alone (R53, R223). -/
theorem admissionFaults_of_exec_store : s.AdmissionFaults i a w.bytes :=
  fun aligned absent => ⟨_, run.trans (store_of_absent v aligned absent), rfl⟩

/-- The three outcomes of a store in the words of the statements. -/
theorem store_spec : s.Stores i a w.bytes v ∧ s.AlignmentFaults i a w.bytes ∧ s.AdmissionFaults i a w.bytes :=
  ⟨stores_of_exec_store run, alignmentFaults_of_exec_store run, admissionFaults_of_exec_store run⟩

end

/-! ### The twenty opcodes -/

/-- Settles O56: in each of the five forms movq stores a quad and movl a long at the form's address. -/
theorem storeQuadAndLong : Obligations.StoreQuadAndLong := by
  intro x y z s
  refine ⟨?decoded, fun i j a form => ?executed⟩
  case decoded =>
    exact ⟨decodeFields_movqStore x y z, decodeFields_movqStoreDisp x y z, decodeFields_movqStoreScaled2 x y z,
      decodeFields_movqStoreScaled4 x y z, decodeFields_movqStoreScaled8 x y z, decodeFields_movl x y z,
      decodeFields_movlDisp x y z, decodeFields_movlScaled2 x y z, decodeFields_movlScaled4 x y z,
      decodeFields_movlScaled8 x y z⟩
  have ⟨runQuad, runLong⟩ :
      exec i s = store .quad a (s.readReg x) s ∧ exec j s = store .long a (s.readReg x) s := by
    rcases form with ⟨rfl, rfl, rfl⟩ | ⟨rfl, rfl, rfl⟩ | ⟨rfl, rfl, rfl⟩ | ⟨rfl, rfl, rfl⟩ | ⟨rfl, rfl, rfl⟩
    · exact ⟨exec_movqStore s x y z, exec_movl s x y z⟩
    · exact ⟨exec_movqStoreDisp s x y z, exec_movlDisp s x y z⟩
    · exact ⟨exec_movqStoreScaled2 s x y z, exec_movlScaled2 s x y z⟩
    · exact ⟨exec_movqStoreScaled4 s x y z, exec_movlScaled4 s x y z⟩
    · exact ⟨exec_movqStoreScaled8 s x y z, exec_movlScaled8 s x y z⟩
  exact ⟨store_spec runQuad, store_spec runLong⟩

/-- Settles O57: in each of the five forms movw stores a word and movb a byte at the form's address. -/
theorem storeWordAndByte : Obligations.StoreWordAndByte := by
  intro x y z s
  refine ⟨?decoded, fun i j a form => ?executed⟩
  case decoded =>
    exact ⟨decodeFields_movw x y z, decodeFields_movwDisp x y z, decodeFields_movwScaled2 x y z,
      decodeFields_movwScaled4 x y z, decodeFields_movwScaled8 x y z, decodeFields_movb x y z,
      decodeFields_movbDisp x y z, decodeFields_movbScaled2 x y z, decodeFields_movbScaled4 x y z,
      decodeFields_movbScaled8 x y z⟩
  have ⟨runWord, runByte⟩ :
      exec i s = store .word a (s.readReg x) s ∧ exec j s = store .byte a (s.readReg x) s := by
    rcases form with ⟨rfl, rfl, rfl⟩ | ⟨rfl, rfl, rfl⟩ | ⟨rfl, rfl, rfl⟩ | ⟨rfl, rfl, rfl⟩ | ⟨rfl, rfl, rfl⟩
    · exact ⟨exec_movw s x y z, exec_movb s x y z⟩
    · exact ⟨exec_movwDisp s x y z, exec_movbDisp s x y z⟩
    · exact ⟨exec_movwScaled2 s x y z, exec_movbScaled2 s x y z⟩
    · exact ⟨exec_movwScaled4 s x y z, exec_movbScaled4 s x y z⟩
    · exact ⟨exec_movwScaled8 s x y z, exec_movbScaled8 s x y z⟩
  exact ⟨store_spec runWord, stores_of_exec_store runByte, admissionFaults_of_exec_store runByte⟩

end Sys2Proof.Machine
end

section
/-! Proofs about the loads (spec/46_loads.md): the value that a load leaves in its destination with all it leaves
alone (R230, R266, R267), and its two faults (R268), said once for every width and extension; each of the
thirty-five opcodes is a load of its width and extension at the address of its form (R231 to R265). -/

namespace Sys2Proof.Machine

/-! ### The extended value -/

/-- The number whose pattern a load puts into its destination, from the number `v` that the fetched bytes make:
`u` of the bytes for a zero extension, `s` of them for a sign extension (R266). -/
def loadedValue (e : Extension) (w : Width) (v : Nat) : Int :=
  match e with
  | .zero => v
  | .sign => signedValue (8 * w.bytes) v

/-- Extending the pattern of `w.bytes` bytes keeps the number they stand for (R266). -/
theorem extended_eq_loadedValue (e : Extension) {w : Width} {v : Nat} (hv : v < 256 ^ w.bytes) :
    extended e w v = BitVec.ofInt 64 (loadedValue e w v) := by
  cases e with
  | zero => exact (BitVec.ofInt_natCast 64 v).symm
  | sign =>
    have fits : v < 2 ^ (8 * w.bytes) := by rwa [Nat.pow_mul]
    rw [loadedValue, ← toInt_ofNat_eq_signedValue fits]
    rfl

/-! ### Every width and extension at once -/

/-- A load asks for alignment first (R268). -/
theorem load_of_misaligned {w : Width} {a : Word} {s : State} (e : Extension) (z : Reg)
    (ha : a.toNat % w.bytes ≠ 0) : load w e a z s = .next (s.raise (.alignmentFault a)) := by
  simp [load, State.memRead, ha]

/-- An aligned load asks for its bytes to exist (R53, R268). -/
theorem load_of_absent {w : Width} {a : Word} {s : State} (e : Extension) (z : Reg)
    (ha : a.toNat % w.bytes = 0) (hp : s.platform.admits a w.bytes = false) :
    load w e a z s = .next (s.raise (.memoryAccessFault a)) := by
  simp [load, State.memRead, ha, hp]

section
variable {i : Instr} {s : State} {w : Width} {e : Extension} {a : Word} {z : Reg} (run : exec i s = load w e a z s)
include run

/-- An aligned load of existing bytes leaves their extended value in `%z`, and all else as before (R230, R266,
R267). -/
theorem loads_of_exec_load : s.Loads i a w.bytes z (loadedValue e w (s.memValue a w.bytes)) := by
  intro aligned admitted
  have value : extended e w (bigEndianValue (s.mem.readBytes a w.bytes)) =
      BitVec.ofInt 64 (loadedValue e w (s.memValue a w.bytes)) := by
    rw [bigEndianValue_readBytes, extended_eq_loadedValue e (memValue_lt s a w.bytes)]
  rw [← value]
  exact ⟨_, run.trans (load_of_admitted e z aligned admitted), readReg_writeReg_dest s z _, advance_ip_eq_nextIp s,
    rfl, fun _ hq => readReg_writeReg_ne s _ (List.ne_of_not_mem_cons hq), fun _ => rfl,
    ⟨rfl, rfl, rfl, rfl, rfl, rfl⟩, rfl⟩

/-- A misaligned load changes the run status alone (R268). -/
theorem alignmentFaults_of_exec_load : s.AlignmentFaults i a w.bytes :=
  fun misaligned => ⟨_, run.trans (load_of_misaligned e z misaligned), rfl⟩

/-- An aligned load of a byte that does not exist changes the run status alone (R53, R268). -/
theorem admissionFaults_of_exec_load : s.AdmissionFaults i a w.bytes :=
  fun aligned absent => ⟨_, run.trans (load_of_absent e z aligned absent), rfl⟩

/-- The three outcomes of a load in the words of the statements. -/
theorem load_spec :
    s.Loads i a w.bytes z (loadedValue e w (s.memValue a w.bytes)) ∧ s.AlignmentFaults i a w.bytes ∧
      s.AdmissionFaults i a w.bytes :=
  ⟨loads_of_exec_load run, alignmentFaults_of_exec_load run, admissionFaults_of_exec_load run⟩

end

/-! ### The thirty-five opcodes -/

/-- Settles O52: in each of the five forms movq loads a quad from the form's address. -/
theorem loadQuad : Obligations.LoadQuad := by
  intro x y z s
  refine ⟨?decoded, fun i a form => ?executed⟩
  case decoded =>
    exact ⟨decodeFields_movqLoad x y z, decodeFields_movqLoadDisp x y z, decodeFields_movqLoadScaled2 x y z,
      decodeFields_movqLoadScaled4 x y z, decodeFields_movqLoadScaled8 x y z⟩
  have run : exec i s = load .quad .zero a z s := by
    rcases form with ⟨rfl, rfl⟩ | ⟨rfl, rfl⟩ | ⟨rfl, rfl⟩ | ⟨rfl, rfl⟩ | ⟨rfl, rfl⟩
    · exact exec_movqLoad s x y z
    · exact exec_movqLoadDisp s x y z
    · exact exec_movqLoadScaled2 s x y z
    · exact exec_movqLoadScaled4 s x y z
    · exact exec_movqLoadScaled8 s x y z
  exact load_spec run

/-- Settles O53: in each of the five forms movzlq and movslq load a long from the form's address, the one
zero-extended and the other sign-extended. -/
theorem loadLong : Obligations.LoadLong := by
  intro x y z s
  refine ⟨?decoded, fun i j a form => ?executed⟩
  case decoded =>
    exact ⟨decodeFields_movzlq x y z, decodeFields_movzlqDisp x y z, decodeFields_movzlqScaled2 x y z,
      decodeFields_movzlqScaled4 x y z, decodeFields_movzlqScaled8 x y z, decodeFields_movslq x y z,
      decodeFields_movslqDisp x y z, decodeFields_movslqScaled2 x y z, decodeFields_movslqScaled4 x y z,
      decodeFields_movslqScaled8 x y z⟩
  have ⟨runZero, runSign⟩ : exec i s = load .long .zero a z s ∧ exec j s = load .long .sign a z s := by
    rcases form with ⟨rfl, rfl, rfl⟩ | ⟨rfl, rfl, rfl⟩ | ⟨rfl, rfl, rfl⟩ | ⟨rfl, rfl, rfl⟩ | ⟨rfl, rfl, rfl⟩
    · exact ⟨exec_movzlq s x y z, exec_movslq s x y z⟩
    · exact ⟨exec_movzlqDisp s x y z, exec_movslqDisp s x y z⟩
    · exact ⟨exec_movzlqScaled2 s x y z, exec_movslqScaled2 s x y z⟩
    · exact ⟨exec_movzlqScaled4 s x y z, exec_movslqScaled4 s x y z⟩
    · exact ⟨exec_movzlqScaled8 s x y z, exec_movslqScaled8 s x y z⟩
  exact ⟨load_spec runZero, load_spec runSign⟩

/-- Settles O54: in each of the five forms movzwq and movswq load a word from the form's address, the one
zero-extended and the other sign-extended. -/
theorem loadWord : Obligations.LoadWord := by
  intro x y z s
  refine ⟨?decoded, fun i j a form => ?executed⟩
  case decoded =>
    exact ⟨decodeFields_movzwq x y z, decodeFields_movzwqDisp x y z, decodeFields_movzwqScaled2 x y z,
      decodeFields_movzwqScaled4 x y z, decodeFields_movzwqScaled8 x y z, decodeFields_movswq x y z,
      decodeFields_movswqDisp x y z, decodeFields_movswqScaled2 x y z, decodeFields_movswqScaled4 x y z,
      decodeFields_movswqScaled8 x y z⟩
  have ⟨runZero, runSign⟩ : exec i s = load .word .zero a z s ∧ exec j s = load .word .sign a z s := by
    rcases form with ⟨rfl, rfl, rfl⟩ | ⟨rfl, rfl, rfl⟩ | ⟨rfl, rfl, rfl⟩ | ⟨rfl, rfl, rfl⟩ | ⟨rfl, rfl, rfl⟩
    · exact ⟨exec_movzwq s x y z, exec_movswq s x y z⟩
    · exact ⟨exec_movzwqDisp s x y z, exec_movswqDisp s x y z⟩
    · exact ⟨exec_movzwqScaled2 s x y z, exec_movswqScaled2 s x y z⟩
    · exact ⟨exec_movzwqScaled4 s x y z, exec_movswqScaled4 s x y z⟩
    · exact ⟨exec_movzwqScaled8 s x y z, exec_movswqScaled8 s x y z⟩
  exact ⟨load_spec runZero, load_spec runSign⟩

/-- Settles O55: in each of the five forms movzbq and movsbq load a byte from the form's address, the one
zero-extended and the other sign-extended; no alignment is asked. -/
theorem loadByte : Obligations.LoadByte := by
  intro x y z s
  refine ⟨?decoded, fun i j a form => ?executed⟩
  case decoded =>
    exact ⟨decodeFields_movzbq x y z, decodeFields_movzbqDisp x y z, decodeFields_movzbqScaled2 x y z,
      decodeFields_movzbqScaled4 x y z, decodeFields_movzbqScaled8 x y z, decodeFields_movsbq x y z,
      decodeFields_movsbqDisp x y z, decodeFields_movsbqScaled2 x y z, decodeFields_movsbqScaled4 x y z,
      decodeFields_movsbqScaled8 x y z⟩
  have ⟨runZero, runSign⟩ : exec i s = load .byte .zero a z s ∧ exec j s = load .byte .sign a z s := by
    rcases form with ⟨rfl, rfl, rfl⟩ | ⟨rfl, rfl, rfl⟩ | ⟨rfl, rfl, rfl⟩ | ⟨rfl, rfl, rfl⟩ | ⟨rfl, rfl, rfl⟩
    · exact ⟨exec_movzbq s x y z, exec_movsbq s x y z⟩
    · exact ⟨exec_movzbqDisp s x y z, exec_movsbqDisp s x y z⟩
    · exact ⟨exec_movzbqScaled2 s x y z, exec_movsbqScaled2 s x y z⟩
    · exact ⟨exec_movzbqScaled4 s x y z, exec_movsbqScaled4 s x y z⟩
    · exact ⟨exec_movzbqScaled8 s x y z, exec_movsbqScaled8 s x y z⟩
  exact ⟨⟨loads_of_exec_load runZero, admissionFaults_of_exec_load runZero⟩, loads_of_exec_load runSign,
    admissionFaults_of_exec_load runSign⟩

end Sys2Proof.Machine
end

section
/-! Proofs about the faults (spec/60_exceptions.md): a fault is precise (R301), an instruction raises only the
faults of its row (R309), and the causes of RegisterIndexFault (R307) and UnknownTrap (R308). What an
instruction of a running machine did if it ended faulted is read off `Effect` once. -/

namespace Sys2Proof.Machine

/-! ### Which steps fault -/

/-- Of all effects only a fault sets the status faulted(f); so a running machine that an instruction left in
that status is as it was but for the status, and the fault is of the instruction's row (R301, R309). -/
theorem Effect.eq_raise_of_faulted {i : Instr} {s t : State} {f : RaisedFault} (he : Effect i s t)
    (running : s.status = .running) (faulted : t.status = .faulted f) :
    t = s.raise f ∧ f.name ∈ i.canRaise := by
  have not_kept : t.status ≠ s.status := by rw [faulted, running]; nofun
  cases he with
  | fault g inRow => cases faulted; exact ⟨rfl, inRow⟩
  | halt _ _ => cases faulted
  | quiet _ quiet _ _ _ =>
    obtain ⟨-, status, -⟩ := quiet
    exact absurd status not_kept
  | store _ _ _ _ _ | output _ _ | input _ _ _ _ _ | transfer _ _ _ _ _ _ _ _ _ _ _
    | handler _ _ _ _ _ _ _ _ => exact absurd rfl not_kept

/-- Settles O10: a fetch or decode fault is raised on the state itself, and an instruction that ends faulted has
raised its fault on the state itself; `step_of_faulted` says that no step follows. -/
theorem faultsArePrecise : Obligations.FaultsArePrecise := by
  intro s t f h faulted
  refine ⟨?stopped, fun u next => ?noStep⟩
  case stopped =>
    obtain ⟨running, ⟨g, -, raised⟩ | ⟨i, -, executed⟩⟩ := step_cases h
    · subst raised; cases faulted; rfl
    · exact ((exec_effect executed).eq_raise_of_faulted running faulted).1
  case noStep =>
    rw [step_of_faulted faulted] at next
    cases next

/-- Settles O11: the second half of `Effect.eq_raise_of_faulted`. -/
theorem faultsByInstruction : Obligations.FaultsByInstruction :=
  fun _ _ _ _ running executed faulted => ((exec_effect executed).eq_raise_of_faulted running faulted).2

/-! ### Neighbour registers -/

/-- Settles O25: the clauses of `mulqProduct`, `divqQuotient` and `idivqQuotient` about absent registers, which
hold whatever the operands are. -/
theorem neighbourRegisterFaults : Obligations.NeighbourRegisterFaults := by
  refine ⟨fun x y z => ⟨decodeFields_mulqReg x y z, decodeFields_mulqImm x y z, decodeFields_divqReg x y z,
    decodeFields_divqImm x y z, decodeFields_idivqReg x y z, decodeFields_idivqImm x y z⟩, fun _ => rfl,
    fun x y z s i => ?_⟩
  obtain ⟨-, -, multiplies⟩ := mulqProduct x y z s
  obtain ⟨-, -, divides⟩ := divqQuotient x y z s
  obtain ⟨-, -, signedDivides⟩ := idivqQuotient x y z s
  have divq_faults (form : i = .divqReg x y z ∨ i = .divqImm x y z) :
      (y = 255 → ∃ t, exec i s = .next t ∧ s.StoppedBy t (.registerIndexFault y)) ∧
      (y ≠ 255 → 254 ≤ z.toNat → ∃ t, exec i s = .next t ∧ s.StoppedBy t (.registerIndexFault z)) := by
    obtain ⟨d, operands⟩ : ∃ d, i = .divqReg x y z ∧ d = (s.readReg x).toNat ∨
        i = .divqImm x y z ∧ d = x.toNat :=
      form.elim (fun isReg => ⟨_, .inl ⟨isReg, rfl⟩⟩) (fun isImm => ⟨_, .inr ⟨isImm, rfl⟩⟩)
    obtain ⟨-, badY, badZ, -⟩ := divides i d _ operands rfl
    exact ⟨badY, badZ⟩
  refine ⟨fun form last => ?_, fun form => (divq_faults form).1, fun form => (divq_faults form).2⟩
  rcases form with isMulq | isMulq | isIdivq | isIdivq
  · obtain ⟨-, badZ⟩ := multiplies i _ (.inl ⟨isMulq, rfl⟩)
    exact badZ last
  · obtain ⟨-, badZ⟩ := multiplies i _ (.inr ⟨isMulq, rfl⟩)
    exact badZ last
  · obtain ⟨-, badZ, -⟩ := signedDivides i _ _ _ _ (.inl ⟨isIdivq, rfl⟩) rfl rfl rfl
    exact badZ last
  · obtain ⟨-, badZ, -⟩ := signedDivides i _ _ _ _ (.inr ⟨isIdivq, rfl⟩) rfl rfl rfl
    exact badZ last

/-! ### Unknown traps -/

/-- A trap number that the platform has no handler for raises UnknownTrap of it, whatever `%y` holds (R308). -/
theorem trapOther_of_unknown {s : State} {n : Word} (p : Word) (z : Reg) (hn : n ∉ s.platform.extraTraps) :
    trapOther n p z s = .next (s.raise (.unknownTrap n)) := by
  rcases trapOther_cases n p z s with ⟨-, unknown⟩ | ⟨_, handled, -⟩ | ⟨_, handled, -⟩
  · exact unknown
  · exact absurd handled hn
  · exact absurd handled hn

/-- Settles O47: a number from 2 on goes to the platform's handlers, and there is none. -/
theorem trapUnknownNumber : Obligations.TrapUnknownNumber := by
  refine ⟨decodeFields_trap, ?_⟩
  rintro x y z s n rfl number noHandler
  exact ⟨_, (execTrap_of_two_le number).trans (trapOther_of_unknown _ z noHandler), rfl, rfl⟩

end Sys2Proof.Machine
end
